-- ==== Sys2Proof/Word.lean ====
section
/-! DEFINITION. Words, octets and the one shape every sparse table of the block has. -/
namespace Sys2Proof

/-- An octet of a frame or of fabric memory. -/
abbrev Byte := BitVec 8
/-- A run of octets: wire order in a frame, rising addresses in memory. -/
abbrev Octets := List Byte
/-- A sparse table: strictly rising keys, no entry equal to the default of the table (see Machine/Table.lean). -/
abbrev Tbl (α : Type) := List (Nat × α)

end Sys2Proof
end

