-- ==== Sys2Proof/Syntax.lean ====
section
/-! DEFINITION. The commands of the block: one constructor per row of spec/opcode_table.json. A row's operands are what
the row brings from OUTSIDE the block (a ring command, the fabric's reply, a frame, a pin); everything else is in State. -/
namespace Sys2Proof

/-- The fabric's answer to one read: its octets in address order, and ERROR (R458, R459). -/
structure FabReply where
  data : Octets := []
  error : Bool := false
deriving DecidableEq, Repr

/-- A ring command as the Spindle holds it when it starts it (R275). Its OPCODE is the row's, unless `opcode` gives one that
R295 does not list (R276, log 8). Beside the 32 bytes it carries what the Spindle has read from the fabric for it: the length of the linked group that begins here as far
as it is posted (R283: 0 while the last command of the group is not posted), the fetch's error (R459), the replies to the
instruction's buffer read (R290) and whether its buffer write is answered with an error, each where the answer is there when the first step
needs it (with none the step ends in YIELD, and a later step brings it, R339), and, for `TALLY.WRITE`, how many
fuse rows fail their read-back before one is read back correct (R418). -/
structure Cmd where
  ring : Nat
  opcode : Option (BitVec 8) := none
  flags : BitVec 8 := 0
  tag : BitVec 16 := 0
  obj : BitVec 24 := 0
  sub : BitVec 8 := 0
  ops : BitVec 192 := 0
  group : Nat := 1
  fetchErr : Bool := false
  reads : List FabReply := []
  writeAck : Option Bool := some false
  fuseBad : Nat := 0
  /-- for `PORT.PLY`: lanes LN24 to LN31 of the partner carry a defined port (R305) -/
  partnerLanes : Bool := false
  /-- for `PORT.PLY`: a lane-rate ceiling of LG6 or LG7 of the partner is below L224 (R444) -/
  partnerLow : Bool := false
deriving DecidableEq, Repr

/-- Which of the device's clocks toggle (R386, R387). -/
structure Clocks where
  dp : Bool := true
  ct : Bool := true
  fb : Bool := true
  tu : Bool := true
deriving DecidableEq, Repr

/-- One beat of a register write (R460). -/
structure RegBeat where
  data : BitVec 64
  strobe : BitVec 8 := 0xFF
deriving DecidableEq, Repr

/-- What the lane's stamper meets at a frame's time-stamp point (R78 to R80): how many nanoseconds ago the point was, the lane of the port that
carries the bit, the error of that lane's shadow in units of 2^-16 ns, which R79 bounds, and the position P of the stamped bit in its word. -/
structure LaneStamp where
  ago : Nat := 0
  lane : Nat := 0
  err : Int := 0
  p : Nat := 0
deriving DecidableEq, Repr

/-- How a frame came through the MAC merge sublayer: the fragments it came in (0: it was not preempted), whether its reassembly failed,
or whether what came had an unknown start-of-frame delimiter (R62). -/
structure Assembly where
  fragments : Nat := 0
  failed : Bool := false
  badSmd : Bool := false
deriving DecidableEq, Repr

/-- The fields of a received shedding message that the state machine reads (R54). -/
structure ShedMsg where
  src : BitVec 48 := 0
  current : Nat := 8
  proposed : Nat := 8
  widths : BitVec 8 := 0
  reason : Nat := 0
  txn : BitVec 16 := 0
deriving DecidableEq, Repr

/-- A stack link (R424): the on-die bus to an instance, or a stack port. -/
inductive StackLink where
  | die (inst : Nat)
  | port (p : Nat)
deriving DecidableEq, Repr

/-- The common octets 19 to 25 of a received stack frame (R425). -/
structure StackHead where
  sender : Nat
  state : Nat := 2
  distaff : Nat := 0
  hops : Nat := 0
  gen : Nat := 1
deriving DecidableEq, Repr

/-- The body of ADMIT_REQ, ADMIT_RESP and RELEASE (R426). -/
structure AdmitMsg where
  requester : Nat
  contract : BitVec 16 := 0
  mask : BitVec 32 := 0
  tag : BitVec 16 := 0
  result : Nat := 0
deriving DecidableEq, Repr

/-- Quality codes of R74. -/
inductive Quality where
  | locked | holdover | unset | starter
deriving DecidableEq, Repr

/-- What runs when the gap of R347 is found: a step of the ring's instruction, a step of the oldest block task, or the first
step of the command at the head of a ring, by its OPCODE. -/
inductive GapWork where
  | step (ring : Nat)
  | task
  | command (op : Nat) (c : Cmd)
deriving DecidableEq, Repr

/-- How a self-test of a domain ends (R331, R491, R492). -/
inductive SelfTestEnd where
  | pass
  | fail (row : Nat)
  | aborted
deriving DecidableEq, Repr

/-- The commands. -/
inductive Instr where
  /-- `NOP` (R295): Instruction with no operands and no effect, completing with a record. -/
  | nop (c : Cmd)
  /-- `FENCE` (R282): Instruction that starts only once earlier records and posted effects of its ring, and the commands in progress on the rings in its mask, have completed. -/
  | fence (c : Cmd)
  /-- `WAIT` (R281): Instruction that holds its ring in WAITING until an event, time or index condition holds or its timeout expires. -/
  | wait (c : Cmd)
  /-- `ECHO` (R295): Instruction that copies operand bytes 8-15 into RESULT. -/
  | echo (c : Cmd)
  /-- `READ` (R297): Instruction that writes an object's content image to a fabric buffer and re-arms the 'first' events of the counters it reads. -/
  | read (c : Cmd)
  /-- `PORT_DEFINE` (R299): Instruction that defines a port, or replaces its definition, with the given lane mode, width, FEC and address and the default settings. -/
  | portDefine (c : Cmd)
  /-- `PORT_UNDEFINE` (R299): PORT.DEFINE with sub-id 1, which removes a port's definition. -/
  | portUndefine (c : Cmd)
  /-- `PORT_UP` (R300): Instruction that enables a port, takes its votes, fills its pause budget and starts lane training. -/
  | portUp (c : Cmd)
  /-- `PORT_DOWN` (R300): Instruction that brings a port down at once, completes its contracted frames and then withdraws its votes. -/
  | portDown (c : Cmd)
  /-- `PORT_SET` (R301): Instruction that writes one group of port settings, after the admission test where a term changes. -/
  | portSet (c : Cmd)
  /-- `PORT_SHED` (R303): Instruction that sets a port's shedding policy and may start a width change. -/
  | portShed (c : Cmd)
  /-- `LANE_MARGIN` (R304): Instruction that asks the PMA to margin a lane and returns its report. -/
  | laneMargin (c : Cmd)
  /-- `PORT_PLY_JOIN` (R445): PORT.PLY with JOIN set, which reserves the odd instance's lanes, makes its time follow and defines the plied port. -/
  | portPlyJoin (c : Cmd)
  /-- `PORT_PLY_SEPARATE` (R445): PORT.PLY with JOIN clear, which reverses the steps of a join. -/
  | portPlySeparate (c : Cmd)
  /-- `PORT_TAG` (R306): Instruction that writes a transmit, receive or redundancy tag profile or the custom TPID of a port. -/
  | portTag (c : Cmd)
  /-- `BOBBIN_OPEN` (R190): Instruction that opens a bobbin, sets its context, zeroes its indices and crumbs and votes for its BC bank. -/
  | bobbinOpen (c : Cmd)
  /-- `BOBBIN_CLOSE` (R215): Instruction that closes an idle bobbin and withdraws its BC bank vote. -/
  | bobbinClose (c : Cmd)
  /-- `BOBBIN_BIND_SKEIN` (R219): BOBBIN.BIND with sub-id 0, which changes the skein of an idle open transmit bobbin. -/
  | bobbinBindSkein (c : Cmd)
  /-- `BOBBIN_BIND_CONTRACT` (R225): BOBBIN.BIND with sub-id 2, which binds an admitted unbound contract to a bobbin and fills its bucket. -/
  | bobbinBindContract (c : Cmd)
  /-- `BOBBIN_CLEAR_WITHDRAWN` (R309): BOBBIN.BIND with sub-id 3, which sets CSTATE from 2 to 0 once the withdrawn contract is FREE. -/
  | bobbinClearWithdrawn (c : Cmd)
  /-- `DATA_WINDOW_DEFINE` (R189): BOBBIN.BIND on the block object with sub-id 1, which defines a data window's base and size. -/
  | dataWindowDefine (c : Cmd)
  /-- `TENANT_GRANT` (R286): BOBBIN.BIND on a command ring object, which writes a Tenant ring's grant. -/
  | tenantGrant (c : Cmd)
  /-- `BOBBIN_DRAIN` (R214): Instruction that puts an open transmit or receive bobbin in DRAINING and returns its unexamined entries with DRAINED. -/
  | bobbinDrain (c : Cmd)
  /-- `SKEIN_SET` (R311): Instruction that defines, changes or undefines a skein. -/
  | skeinSet (c : Cmd)
  /-- `SPREAD_GROUP_SET` (R153): SPREAD.SET with sub-id 0, which sets a spread group's base and size or undefines it. -/
  | spreadGroupSet (c : Cmd)
  /-- `SPREAD_ENTRIES_WRITE` (R312): SPREAD.SET with sub-id 1, which writes checked spread-table entries from a buffer. -/
  | spreadEntriesWrite (c : Cmd)
  /-- `CONTRACT_ADMIT` (R247): Instruction that runs the admission test for a candidate contract and admits it on success. -/
  | contractAdmit (c : Cmd)
  /-- `CONTRACT_WITHDRAW` (R249): Instruction that sets an admitted contract WITHDRAWING and its bobbin's CSTATE to 2. -/
  | contractWithdraw (c : Cmd)
  /-- `CONTRACT_QUERY` (R250): Instruction that runs the admission test for an admission or amendment and commits nothing. -/
  | contractQuery (c : Cmd)
  /-- `CONTRACT_AMEND` (R248): Instruction that tests a contract's transitional values and applies its new fields on success. -/
  | contractAmend (c : Cmd)
  /-- `FAB_RATE_SET` (R238): CONTRACT.AMEND on the block object with sub-id 1, which tests and sets FAB_RATE. -/
  | fabRateSet (c : Cmd)
  /-- `STREAM_SET` (R106): Instruction that writes a redundancy stream's generation, recovery and identification fields. -/
  | streamSet (c : Cmd)
  /-- `TEMPLATE_WRITE` (R130): Instruction that loads a checked extraction template image from fabric memory. -/
  | templateWrite (c : Cmd)
  /-- `RULE_WRITE` (R317): Instruction that writes checked rule images into a slice's standby bank. -/
  | ruleWrite (c : Cmd)
  /-- `RULE_COMMIT` (R151): Instruction that swaps a slice's rule banks and completes once the old epoch has drained. -/
  | ruleCommit (c : Cmd)
  /-- `RULE_READ` (R319): Instruction that writes one rule image of a named bank to a buffer. -/
  | ruleRead (c : Cmd)
  /-- `TABLE_INSERT` (R176): Instruction that inserts or replaces a station entry through the learn port. -/
  | tableInsert (c : Cmd)
  /-- `TABLE_DELETE` (R176): Instruction that removes every copy of a station key. -/
  | tableDelete (c : Cmd)
  /-- `TABLE_LOOKUP` (R176): Instruction that returns a station entry with its bucket and slot, without a refresh. -/
  | tableLookup (c : Cmd)
  /-- `TABLE_FLUSH` (R322): Instruction that removes matching station entries, sweeping buckets in steps. -/
  | tableFlush (c : Cmd)
  /-- `TABLE_REHASH` (R180): Instruction that moves the station table to two new seeds in two passes, or resumes such a move. -/
  | tableRehash (c : Cmd)
  /-- `TABLE_LEARN_PORT` (R321): TABLE.LEARN of a port, which sets learning enable, FID mode and value and flood group. -/
  | tableLearnPort (c : Cmd)
  /-- `TABLE_LEARN_TABLE` (R321): TABLE.LEARN of the station table, which sets the move hold-down and the export bobbin. -/
  | tableLearnTable (c : Cmd)
  /-- `TABLE_AGE` (R174): Instruction that sets the age sweep period and AGE_INIT. -/
  | tableAge (c : Cmd)
  /-- `TIME_SET` (R73): Instruction that loads a T96 time as a step at the next realignment boundary. -/
  | timeSet (c : Cmd)
  /-- `TIME_ADJUST_STEP` (R73): TIME.ADJUST with sub-id 0, which adds a signed offset as a step. -/
  | timeAdjustStep (c : Cmd)
  /-- `TIME_ADJUST_SLEW` (R72): TIME.ADJUST with sub-id 1, which starts, replaces or cancels a slew. -/
  | timeAdjustSlew (c : Cmd)
  /-- `TIME_RATE` (R71): Instruction that sets the time unit's rate at the next realignment boundary. -/
  | timeRate (c : Cmd)
  /-- `PPS_OUT_SET` (R101): TIME.PPS with sub-id 0, which sets PPS_OUT enable, width, offset and ALWAYS. -/
  | ppsOutSet (c : Cmd)
  /-- `PPS_IN_SET` (R103): TIME.PPS with sub-id 1, which enables or disables PPS_IN capture. -/
  | ppsInSet (c : Cmd)
  /-- `POWER_VOTE` (R325): Instruction that takes one ring vote on a power domain and waits for it to wake. -/
  | powerVote (c : Cmd)
  /-- `POWER_UNVOTE` (R325): Instruction that withdraws a ring's vote on a power domain. -/
  | powerUnvote (c : Cmd)
  /-- `POWER_SLEEP` (R365): Instruction that casts or withdraws a host's sleep vote, which may be held, granted or complete the sleep condition. -/
  | powerSleep (c : Cmd)
  /-- `POWER_RETAIN` (R375): Instruction that sets the retain and release masks for the next sleep entry. -/
  | powerRetain (c : Cmd)
  /-- `POWER_WAKESRC_SET` (R382): POWER.WAKESRC on the block with sub-id 0, which sets the wake source masks and timer. -/
  | powerWakesrcSet (c : Cmd)
  /-- `POWER_WAKESRC_QUERY` (R325): POWER.WAKESRC on the block with sub-id 1, which returns the record of the last wake source. -/
  | powerWakesrcQuery (c : Cmd)
  /-- `WAKE_FRAME_FILTER_SET` (R381): POWER.WAKESRC on a port, which sets the port's wake-frame filter. -/
  | wakeFrameFilterSet (c : Cmd)
  /-- `POWER_CLOCK` (R387): Instruction that switches one or every powered domain between FIO and its normal clock. -/
  | powerClock (c : Cmd) (tog : Clocks)
  /-- `CHECK_SET` (R326): Instruction that writes one parameter group of a check channel. -/
  | checkSet (c : Cmd)
  /-- `CHECK_RUN` (R400): Instruction that checks a channel's source list and runs its CRC, holding the ring or completing DEFERRED. -/
  | checkRun (c : Cmd)
  /-- `LEDGER_READ` (R328): Instruction that copies bytes of the Ledger array to a buffer. -/
  | ledgerRead (c : Cmd)
  /-- `LEDGER_FLUSH` (R410): LEDGER.FLUSH with sub-id 0, which flushes the Ledger at once unless the last flush ended less than 1 s ago. -/
  | ledgerFlush (c : Cmd)
  /-- `LEDGER_FLUSH_INTERVAL_SET` (R328): LEDGER.FLUSH with sub-id 1, which sets the flush interval. -/
  | ledgerFlushIntervalSet (c : Cmd)
  /-- `LEDGER_CLEAR` (R415): LEDGER.FLUSH with sub-id 2, which writes a cleared image unless the clear lock tally is set. -/
  | ledgerClear (c : Cmd)
  /-- `TALLY_WRITE` (R418): Instruction that burns the next fuse row of a tally, reads it back and records and flushes the change. -/
  | tallyWrite (c : Cmd)
  /-- `TALLY_READ` (R329): Instruction that returns a tally's value in force and its rows used. -/
  | tallyRead (c : Cmd)
  /-- `STACK_FORM` (R430): Instruction that makes the instance Distaff of a new stack of generation 1 and starts heartbeats. -/
  | stackForm (c : Cmd)
  /-- `STACK_JOIN` (R431): Instruction that joins a stack through JOIN_REQ, JOIN_ACK, delay measurement and a time step. -/
  | stackJoin (c : Cmd)
  /-- `STACK_ELECT` (R440): Instruction that makes a tally-eligible orphan Distaff of a new generation. -/
  | stackElect (c : Cmd)
  /-- `STACK_LEAVE` (R432): Instruction that sends LEAVE, stops heartbeats and sets the stack state to NONE. -/
  | stackLeave (c : Cmd)
  /-- `SELFTEST` (R331): Instruction that runs a live-safe test or defers a destructive test of a domain. -/
  | selftest (c : Cmd)
  /-- `LOOPBACK` (R332): Instruction that sets or defers a port's MAC or PMA loopback. -/
  | loopback (c : Cmd)
  /-- `IRQ_ROUTE` (R333): Instruction that sets an interrupt group's priority and target set. -/
  | irqRoute (c : Cmd)
  /-- `IRQ_MODERATE` (R333): Instruction that sets an interrupt group's hold-off. -/
  | irqModerate (c : Cmd)
  /-- `IRQ_WAKE` (R333): Instruction that makes an interrupt group wake-capable or not. -/
  | irqWake (c : Cmd)
  /-- `FILTER_SET` (R333): Instruction that sets the filter length and enable of one EVT_IN input. -/
  | filterSet (c : Cmd)
  /-- `SYS_RESET` (R334): Instruction that, once every other ring is idle, writes its record and starts a soft reset. -/
  | sysReset (c : Cmd)
  /-- `SYS_STARTER` (R488): Instruction that leaves starter service by loading the time unit from the starter counter at a realignment boundary. -/
  | sysStarter (c : Cmd)
  /-- `HOST_IDX_WRITE` (R192): Write of IDX_ENTRY, the bobbin doorbell, which stores HOST_IDX when the index check accepts it. -/
  | hostIdxWrite (b : Nat) (v : BitVec 64) (strobe : BitVec 8)
  /-- `PUSH` (R209): 128-byte write to a transmit bobbin's push window, which is accepted as an index write with descriptors or rejected whole. -/
  | push (b : Nat) (bytes : Octets) (burst : Bool)
  /-- `CR_ENABLE` (R270): Write of CR_CFG that sets ENABLE, zeroing the ring's indices and setting it RUNNING when the bases are aligned. -/
  | crEnable (r : Nat) (v : BitVec 64) (sec : Bool)
  /-- `CR_DISABLE` (R270): Write of CR_CFG that clears ENABLE, stopping the ring at its next command boundary. -/
  | crDisable (r : Nat) (v : BitVec 64) (sec : Bool)
  /-- `CR_PRIV_WRITE` (R269): Write of the PRIV field of CR_CFG, stored only with the secure attribute while ENABLE is 0. -/
  | crPrivWrite (r : Nat) (priv : BitVec 2) (sec : Bool)
  /-- `CR_SIZE_WRITE` (R269): Write of the SIZE_LOG2 field of CR_CFG, stored only while ENABLE is 0 and the value is 3 to 12. -/
  | crSizeWrite (r : Nat) (size : BitVec 4)
  /-- `CR_DOORBELL` (R271): Write of CR_IDX, which advances the command queue's producer index after the index check. -/
  | crDoorbell (r : Nat) (v : BitVec 64) (strobe : BitVec 8)
  /-- `CR_CPL_IDX_WRITE` (R271): Write of CR_CPL_IDX, which advances the completion queue's consumer index after the index check. -/
  | crCplIdxWrite (r : Nat) (v : BitVec 64) (strobe : BitVec 8)
  /-- `CR_PUSH` (R272): Write to a command ring's push window, which delivers commands with a new producer index or is rejected. -/
  | crPush (r : Nat) (bytes : Octets) (burst : Bool)
  /-- `RESUME` (R284): Write of 1 to the RESUME bit of CR_STATE, which sets a HALTED ring RUNNING. -/
  | resume (r : Nat)
  /-- `TSQ_POP` (R88): Read of TSQ_POP_LO, which returns and removes the oldest time-stamp queue entry and latches TSQ_POP_HI. -/
  | tsqPop (p : Nat) (strobe : BitVec 8)
  /-- `TU_NOW_READ` (R104): Read of TU_NOW_LO, which returns the current time and latches TU_NOW_HI. -/
  | tuNowRead (strobe : BitVec 8)
  /-- `TU_PPS_CAPTURE_READ` (R104): Read of TU_PPS_CAPTURE_LO, which returns the last capture and latches its HI register. -/
  | tuPpsCaptureRead (strobe : BitVec 8)
  /-- `CLAIM` (R359): Read of IC_CLAIM_n, which claims the highest presentable source for a host or returns 0x7FF. -/
  | claim (t : Nat) (strobe : BitVec 8)
  /-- `END_OF_INTERRUPT` (R361): Write of IC_EOI_n, which removes a source from the host's in-service set or sets EOI_ERR. -/
  | endOfInterrupt (t : Nat) (src : BitVec 11) (strobe : BitVec 8)
  /-- `REGISTER_WRITE` (R3): Write to a register without a row of its own, such as an RW1C clear, an enable or a ring base, acting by its access code. -/
  | registerWrite (addr : BitVec 26) (beats : List RegBeat) (sec : Bool)
  /-- `SPINDLE_STEP` (R341): Running of one ready step-queue entry, a resumed instruction step or block task, at a Spindle boundary. -/
  | spindleStep (fault : Bool) (acked : BitVec 9) (reply : FabReply)
  /-- `BOUNDARY_GAP_FAULT` (R347): Expiry of the counter that finds more than 2,048 CT cycles between boundaries, faulting at once. -/
  | boundaryGapFault (w : GapWork)
  /-- `T4_PENDING_CLEAR` (R355): Clearing of the claimed source's T4 pending bit once the selection has crossed into AO, after which its service routine may start. -/
  | t4PendingClear
  /-- `STEP_STALLED` (R351): Expiry of 1 s during which a journal entry waits on the same YIELD condition, raising EV_SQ_STEP_STALLED. -/
  | stepStalled (n : Nat)
  /-- `CR_RECORD_ACK` (R273): Fabric acknowledgement of a command record, after which both ring indices advance and the next command may start. -/
  | crRecordAck (r : Nat) (error : Bool)
  /-- `WAIT_CONDITION_MET` (R281): Finding that a waiting WAIT's condition holds, completing it DONE. -/
  | waitConditionMet (r : Nat)
  /-- `WAIT_TIMEOUT` (R281): Expiry of a WAIT's timeout, completing it DONE_NOTE or BUSY. -/
  | waitTimeout (r : Nat)
  /-- `DESCRIPTOR_FETCH_DONE` (R228): Return of a fetched transmit descriptor from the fabric, leading to its examination and door decision. -/
  | descriptorFetchDone (b : Nat) (reply : FabReply)
  /-- `POOL_CLAIM_GRANTED` (R260): Grant of a waiting pool claim once enough cells are free, after which the frame's data is read. -/
  | poolClaimGranted (k : Nat)
  /-- `FRAME_STAGED` (R231): Writing of a frame's last cell into the proof store, fixing its staged instant and eligibility. -/
  | frameStaged (fid : Nat) (data : Octets)
  /-- `CALENDAR_SLOT_BOUNDARY` (R256): Start of a Whorl calendar slot, moving far entries into the ring and making released frames candidates. -/
  | calendarSlotBoundary (p : Nat)
  /-- `WHORL_DECISION` (R261): Whorl decision in a DP cycle that selects a frame by tier, asks for a cut or resumes a suspended frame. -/
  | whorlDecision (p : Nat)
  /-- `PREEMPTION_CUT` (R267): Cut of a preemptable frame by the MAC at the first boundary that allows it, suspending the frame. -/
  | preemptionCut (p : Nat) (sent : Nat)
  /-- `TX_TIME_STAMP_POINT` (R86): Passage of a transmitted frame's time-stamp point, making any queue entry and fixing its residence. -/
  | txTimeStampPoint (p : Nat) (stamp : LaneStamp)
  /-- `TRANSMISSION_END` (R255): End of a frame on the medium, freeing the transmitter, releasing cells and issuing the completion record. -/
  | transmissionEnd (p : Nat)
  /-- `COMPLETION_RECORD_ACK` (R205): Fabric acknowledgement of a completion record write, advancing the completion and source indices in order. -/
  | completionRecordAck (cb : Nat) (slot : Nat) (error : Bool)
  /-- `FRAME_RECEIVED` (R31): Reception of a whole frame by the MAC and its passage through recovery, extraction, lookup and classification to its destination. -/
  | frameReceived (p : Nat) (frame : Octets) (stamp : LaneStamp) (descs : List FabReply) (asm : Assembly := {})
  /-- `RECIRCULATION_PASS` (R148): Second pass of a queued frame through extraction and classification when a parse lane is free. -/
  | recirculationPass (k : Nat) (descs : List FabReply)
  /-- `RX_BUFFER_WRITE_ACK` (R459): Fabric acknowledgement of a receive buffer write, or its error that truncates the frame. -/
  | rxBufferWriteAck (rid : Nat) (error : Bool) (octets : Nat)
  /-- `CSI_RX_TRANSFER` (R454): Hand-off of a waiting received frame on the core stream interface while READY is high. -/
  | csiRxTransfer (k : Nat)
  /-- `CSI_TX_FRAME` (R457): Arrival of a frame on the transmit core stream interface, checked at SOP and staged into pool cells. -/
  | csiTxFrame (k : Nat) (md : BitVec 256) (data : Octets)
  /-- `LEARN_PORT_WRITE` (R169): Execution by the learn port of one queued learn request or table operation. -/
  | learnPortWrite
  /-- `AGE_SWEEP_VISIT` (R174): Visit of the age sweep to a bucket, refreshing, aging or removing dynamic entries. -/
  | ageSweepVisit
  /-- `HOLD_TICK` (R170): Advance of the global hold tick counter every tau. -/
  | holdTick
  /-- `HOLD_SWEEP_VISIT` (R170): Visit of the hold sweep to a bucket, clearing expired HELD bits. -/
  | holdSweepVisit
  /-- `REDUNDANCY_SWEEP_VISIT` (R119): Visit of the sweep to a stream, setting TAKE_ANY after RESET_MS of silence. -/
  | redundancySweepVisit (stream : Nat)
  /-- `PAUSE_FRAME_RECEIVED` (R42): Reception of a pause frame, loading the hold timer of every class. -/
  | pauseFrameReceived (p : Nat) (quanta : BitVec 16)
  /-- `PFC_FRAME_RECEIVED` (R39): Reception of a PFC frame, loading the hold timers of the classes mapped to its priorities. -/
  | pfcFrameReceived (p : Nat) (enable : BitVec 8) (quanta : BitVec 128)
  /-- `CLASS_HOLD_START` (R41): Start of a class hold 2 DP cycles after reception, or at the end of the frame of a held class. -/
  | classHoldStart (p : Nat) (cl : Nat)
  /-- `HOLD_TIMER_EXPIRY` (R41): Expiry of a class's pause hold timer, ending the hold. -/
  | holdTimerExpiry (p : Nat) (cl : Nat)
  /-- `XOFF_DELAY_EXPIRY` (R45): Expiry of the XOFF delay while delivery of a class is held back, sending XOFF. -/
  | xoffDelayExpiry (p : Nat) (cl : Nat)
  /-- `XOFF_REPEAT` (R45): Expiry of half the sent pause time while the condition lasts, repeating XOFF. -/
  | xoffRepeat (p : Nat) (cl : Nat)
  /-- `LINK_UP` (R28): Expiry of the link-up hold with every lock condition met, bringing the port up. -/
  | linkUp (p : Nat)
  /-- `LINK_DOWN` (R29): Failure of a lock condition for 1 us, stopping transmission and completing contracted frames. -/
  | linkDown (p : Nat)
  /-- `TRAINING_DONE` (R464): Report of done on a lane's training status, letting the port come up. -/
  | trainingDone (lane : Nat)
  /-- `TRAINING_FAILED` (R464): Report of failure on a lane's training status, raising EV_PORT_TRAIN_FAIL. -/
  | trainingFailed (lane : Nat)
  /-- `TRAINING_RETRY` (R464): Restart of training 100 ms after a failure while the port stays enabled. -/
  | trainingRetry (p : Nat)
  /-- `VERIFY_TIMER_EXPIRY` (R37): Expiry of a verify time without a valid respond mPacket, resending or failing verification. -/
  | verifyTimerExpiry (p : Nat)
  /-- `RESPOND_MPACKET_RECEIVED` (R37): Reception of a valid respond mPacket, making preemption active. -/
  | respondMpacketReceived (p : Nat)
  /-- `VERIFY_MPACKET_RECEIVED` (R37): Reception of a verify mPacket, answered with a respond mPacket. -/
  | verifyMpacketReceived (p : Nat)
  /-- `FEC_SECOND` (R65): End of a one-second window of corrected FEC symbols, raising EV_PORT_FEC_DEGRADED above the threshold. -/
  | fecSecond (p : Nat) (cwCorrected cwBad symbols blockErrs : Nat)
  /-- `LPI_ENTRY` (R52): Expiry of the idle threshold with nothing to send, entering low-power idle. -/
  | lpiEntry (p : Nat)
  /-- `LPI_WAKE_END` (R52): End of the wake time TW, after which the port may start a frame. -/
  | lpiWakeEnd (p : Nat)
  /-- `SHED_WINDOW_END` (R57): End of a 64 us shedding measurement window, which may propose a width change. -/
  | shedWindowEnd (p : Nat)
  /-- `OFFER_TIMER` (R55): Expiry of the 1 s OFFER interval, sending OFFER. -/
  | offerTimer (p : Nat)
  /-- `OFFER` (R55): Reception of an OFFER shedding message. -/
  | offer (p : Nat) (m : ShedMsg)
  /-- `REQUEST` (R59): Reception of a REQUEST shedding message, answered with ACCEPT or DECLINE. -/
  | request (p : Nat) (m : ShedMsg)
  /-- `ACCEPT` (R59): Reception of ACCEPT in PROPOSED, sending READY and switching the transmit PCS. -/
  | accept (p : Nat) (m : ShedMsg)
  /-- `DECLINE` (R59): Reception of DECLINE in PROPOSED, returning to the previous state. -/
  | decline (p : Nat) (m : ShedMsg)
  /-- `READY` (R59): Reception of READY, switching the receive PCS. -/
  | ready (p : Nat) (m : ShedMsg)
  /-- `DONE` (R59): Reception of DONE, the first frame at the new width. -/
  | done (p : Nat) (m : ShedMsg)
  /-- `ABORT` (R59): Reception of ABORT in AGREED, returning to the previous state. -/
  | abort (p : Nat) (m : ShedMsg)
  /-- `SHED_PROPOSE_TIMEOUT` (R59): Expiry of the 1 ms timer in PROPOSED, sending ABORT. -/
  | shedProposeTimeout (p : Nat)
  /-- `SHED_AGREE_TIMEOUT` (R59): Expiry of 1 ms in AGREED without READY. -/
  | shedAgreeTimeout (p : Nat)
  /-- `SHED_ALIGNED` (R61): Alignment of both directions at the new width, sending DONE and resuming frames. -/
  | shedAligned (p : Nat)
  /-- `SHED_SWITCH_TIMEOUT` (R59): Expiry of TS in SWITCHING without alignment, reverting and raising EV_PORT_SHED_ABORT. -/
  | shedSwitchTimeout (p : Nat)
  /-- `REALIGNMENT_BOUNDARY` (R70): TU cycle at a multiple of 1,024 where pending rate changes, slews and steps take effect. -/
  | realignmentBoundary
  /-- `SLEW_DONE` (R72): Slew remainder reaching zero, raising EV_TU_SLEW_DONE. -/
  | slewDone
  /-- `REF_LOSS` (R75): Reference-valid false for 16 TU cycles, entering HOLDOVER. -/
  | refLoss
  /-- `REF_OK` (R75): Reference-valid true for 1,024 TU cycles, leaving HOLDOVER. -/
  | refOk
  /-- `PPS_OUT_RISE` (R101): Time reaching a whole second plus offset, raising PPS_OUT and EV_TU_PPS_OUT. -/
  | ppsOutRise
  /-- `PPS_OUT_FALL` (R101): End of the PPS pulse width, lowering PPS_OUT. -/
  | ppsOutFall
  /-- `PPS_IN_CAPTURE` (R103): Rising edge of PPS_IN, capturing the time and raising EV_TU_PPS_IN. -/
  | ppsInCapture
  /-- `STARTER_TRIM` (R486): Trim of the starter time counter against the AO clock every 1,024 AO cycles. -/
  | starterTrim
  /-- `GATE_OPEN` (R357): Opening of a group's gate once its hold-off counter reaches K with a pending enabled source. -/
  | gateOpen (g : Nat)
  /-- `EVT_IN_ACCEPTED` (R363): Acceptance of a new level on an EVT_IN input after N equal samples, raising EV_EVT_IN_n on a rise. -/
  | evtInAccepted (n : Nat) (level : Bool)
  /-- `SLEEP_VOTE_GRANTED` (R365): Grant of a held sleep vote in the first AO cycle with no pending source for the host. -/
  | sleepVoteGranted (t : Nat)
  /-- `SLEEP_ENTRY` (R379): Start of block sleep entry once all hosts' votes are granted and the block is idle, suspending votes. -/
  | sleepEntry
  /-- `QUIESCE_DONE` (R372): End of a domain's quiesce phase, leading to save and check or isolation. -/
  | quiesceDone (d : Nat)
  /-- `SAVE_AND_CHECK_DONE` (R376): End of the index save and retention CRC of the banks to be retained. -/
  | saveAndCheckDone
  /-- `REGULATOR_REQUEST_FALL` (R466): Lowering of PM_REQ_d 25 AO cycles after the isolation instant. -/
  | regulatorRequestFall (d : Nat)
  /-- `PM_PGOOD_FALL` (R465): Fall of a domain's regulator-good after its request falls, starting the repower hold-off. -/
  | pmPgoodFall (d : Nat)
  /-- `REPOWER_HOLDOFF_END` (R373): Expiry of the 20 us after regulator-good falls, allowing a new power request. -/
  | repowerHoldoffEnd (d : Nat)
  /-- `PM_PGOOD_RISE` (R466): Assertion of regulator-good on a requested domain, starting its 200 AO cycle bring-up. -/
  | pmPgoodRise (d : Nat)
  /-- `DOMAIN_ON` (R368): Completion of a domain's wake, which reads ON with its power-up values. -/
  | domainOn (d : Nat) (toggling : Bool)
  /-- `WAKE_TIMEOUT` (R388): Expiry of 500 us without a domain ready, withdrawing the request or marking the domain FAILED. -/
  | wakeTimeout (d : Nat)
  /-- `WAKE_RETRY` (R388): Expiry of 1 ms after a first failed request, requesting power again. -/
  | wakeRetry (d : Nat)
  /-- `RETENTION_CHECK_DONE` (R377): End of a retained bank's CRC check at wake, making it ON or declaring it lost. -/
  | retentionCheckDone (d : Nat) (crc : BitVec 32) (toggling : Bool := false)
  /-- `PGOOD_LOSS` (R390): Fall of regulator-good on a domain that is ON, isolating it and handling its lost state. -/
  | pgoodLoss (d : Nat)
  /-- `CLOCK_SWITCH` (R386): Self-switch of a woken domain to its normal clock once that clock toggles. -/
  | clockSwitch (d : Nat)
  /-- `WAKE_EVENT` (R383): A wake event during sleep entry or sleep, aborting the entry or ending the sleep. -/
  | wakeEvent (kind : Nat) (num : Nat) (frame : Octets := [])
  /-- `LINK_ACTIVITY` (R382): Rise of a lane's signal detect held for 8 AO cycles, a wake event. -/
  | linkActivity (lane : Nat)
  /-- `WAKE_TIMER_EXPIRY` (R382): Expiry of the wake timer after the isolation instant, a wake event. -/
  | wakeTimerExpiry
  /-- `POWER_FAIL_NOTICE` (R391): Recognition of PFAIL_N low, raising the notice event and flushing the Ledger. -/
  | powerFailNotice
  /-- `BLOCK_RESET` (R479): Recognition of BLK_RST_N low, clamping and powering down every switched domain. -/
  | blockReset
  /-- `BLOCK_RESET_RELEASE` (R483): Release of block reset, starting the start-up sequence. -/
  | blockResetRelease
  /-- `COLD_RESET` (R481): Fall of VDD_AON below 0.68 V, holding cold reset and clearing AON. -/
  | coldReset
  /-- `COLD_RESET_RELEASE` (R483): Release of cold reset 16 AO cycles after VDD_AON is good, starting start-up. -/
  | coldResetRelease
  /-- `SOFT_RESET_EXIT` (R477): End of the 64 CT cycles of soft reset, starting the ROM check. -/
  | softResetExit
  /-- `ROM_CHECK_DONE` (R336): End of the ROM signature check, releasing the Spindle or entering HELD. -/
  | romCheckDone
  /-- `CHECK_RUN_END` (R401): End of a check channel's run, storing its result and outcome and raising G60 events. -/
  | checkRunEnd (ch : Nat) (reply : FabReply)
  /-- `SELFTEST_END` (R491): End of a destructive self-test, resetting the domain and recording the outcome. -/
  | selftestEnd (d : Nat) (outcome : SelfTestEnd)
  /-- `LEDGER_INTERVAL_FLUSH` (R410): Expiry of the Ledger flush interval, starting a flush. -/
  | ledgerIntervalFlush
  /-- `LEDGER_FLUSH_DONE` (R409): End of a Ledger flush write and its read-back, with rewrite or retirement on failure. -/
  | ledgerFlushDone (ok : Bool)
  /-- `LEDGER_SECOND_SAMPLE` (R414): Once-per-second sampling of temperature and FEC work into the Ledger's pending areas. -/
  | ledgerSecondSample (temp : Option Int) (fec : List Nat)
  /-- `HEARTBEAT_TICK` (R428): Microsecond tick that increments the own heartbeat counter and sends HEARTBEAT on each stack link. -/
  | heartbeatTick
  /-- `HEARTBEAT` (R441): Reception of a HEARTBEAT, merging the reach vector or starting a merge on a winning generation. -/
  | heartbeat (l : StackLink) (h : StackHead) (reach : BitVec 256)
  /-- `REACH_STALE` (R429): Expiry of 8 us without change of an instance's reach entry, raising EV_STK_PARTITION and suspending contracts. -/
  | reachStale (inst : Nat)
  /-- `LINK_HEARTBEAT_LOSS` (R429): Expiry of 8 us without HEARTBEAT on a stack link, raising EV_STK_HEARTBEAT_LOSS. -/
  | linkHeartbeatLoss (l : StackLink)
  /-- `TIME_FRAME_TICK` (R433): 16 us tick that sends TIME frames on each stack link. -/
  | timeFrameTick
  /-- `TIME` (R435): Reception of a TIME frame from the upstream, steering or stepping the member's time. -/
  | time (l : StackLink) (h : StackHead) (origin : Int) (stamp : LaneStamp) (quality : Quality)
  /-- `UPSTREAM_TIMEOUT` (R433): Expiry of 64 us without TIME frames on the upstream link, choosing a new upstream. -/
  | upstreamTimeout
  /-- `DELAY_REQ_TICK` (R434): 1 ms tick that sends DELAY_REQ on each stack link. -/
  | delayReqTick
  /-- `DELAY_REQ` (R434): Reception of a DELAY_REQ, answered with DELAY_RESP. -/
  | delayReq (l : StackLink) (h : StackHead) (seq : BitVec 16) (stamp : LaneStamp)
  /-- `DELAY_RESP` (R434): Reception of a DELAY_RESP, updating the link's mean one-way delay. -/
  | delayResp (l : StackLink) (h : StackHead) (seq : BitVec 16) (t2 t3 : Int) (stamp : LaneStamp)
  /-- `JOIN_REQ` (R431): Reception of a JOIN_REQ, relayed or answered by the Distaff with JOIN_ACK. -/
  | joinReq (l : StackLink) (h : StackHead)
  /-- `JOIN_ACK` (R431): Reception of a JOIN_ACK by a joining instance, or its relay. -/
  | joinAck (l : StackLink) (h : StackHead) (inst : Nat) (result : Nat) (members : BitVec 32)
  /-- `ADMIT_REQ` (R437): Reception of an ADMIT_REQ, approved or refused by the Distaff, or relayed. -/
  | admitReq (l : StackLink) (h : StackHead) (m : AdmitMsg)
  /-- `ADMIT_RESP` (R437): Reception of an ADMIT_RESP by the admitting instance, or its relay. -/
  | admitResp (l : StackLink) (h : StackHead) (m : AdmitMsg)
  /-- `RELEASE` (R437): Reception of a RELEASE, ending a pending approval at the Distaff, or its relay. -/
  | release (l : StackLink) (h : StackHead) (m : AdmitMsg)
  /-- `ADMIT_PENDING_TIMEOUT` (R437): Expiry of 10 ms on an approved request pending at the Distaff. -/
  | admitPendingTimeout (tag : BitVec 16) (requester : Nat)
  /-- `LEAVE` (R432): Reception of a LEAVE, making the sender's reach entry stale at once. -/
  | leave (l : StackLink) (h : StackHead)
  /-- `MERGE_WINDOW_END` (R442): End of the 16 ms merge window, stepping the time and becoming MEMBER. -/
  | mergeWindowEnd
  /-- `SUSPENSION_END` (R443): End of a contract's stack-split suspension 17 ms after the last instance became reachable. -/
  | suspensionEnd (ct : Nat)
  /-- `PARTNER_ABSENT` (R447): Fall of SB_PARTNER_PRESENT, bringing a plied port down. -/
  | partnerAbsent
  /-- `PCS_ALIGNMENT_LOCK` (R28): Gain of PCS and FEC alignment lock on every lane of a port, with no local or remote fault, starting the link-up hold. -/
  | pcsAlignmentLock (p : Nat)
  /-- `PCS_ALIGNMENT_LOSS` (R29): Loss of alignment lock, or a local or remote fault, on a lane of a port, counting PCS_ALIGN_LOSS and starting the 1 us link-down filter. -/
  | pcsAlignmentLoss (p : Nat)
  /-- `POWER_FAIL_NOTICE_WITHDRAWN` (R391): Return of PFAIL_N high, ending the notice, the LATE_POWER cause interval for the whole block and BLK_STATUS.PFAIL. -/
  | powerFailNoticeWithdrawn
  /-- `PM_ACK_FALL` (R465): Fall of PM_ACK_d after PM_REQ_d falls, from which R373 may count its 20 us and after which the block may raise PM_REQ_d again. -/
  | pmAckFall (d : Nat)
  /-- `FRAME_DATA_READ_ERROR` (R459): Error response on a data read of an accepted frame, completing it unsent with MALFORMED_ADDRESS and releasing its cells at its record. -/
  | frameDataReadError (fid : Nat)
  /-- `PARTNER_LPI_ENTRY` (R62): Entry of the link partner into low-power idle, counted in RX_LPI_ENTRIES with its time in RX_LPI_TIME. -/
  | partnerLpiEntry (p : Nat) (time8 : Nat)
  /-- `STACK_RESPONSE_TIMEOUT` (R437): Expiry of 1 ms without the awaited Distaff frame, JOIN_ACK or ADMIT_RESP, completing the instruction with STACK_SPLIT. -/
  | stackResponseTimeout (r : Nat)
deriving DecidableEq, Repr

end Sys2Proof
end

