-- ==== Sys2Proof/Decode.lean ====
section
/-! DEFINITION. The block has no instruction words of its own: spec/opcode_table.json gives bits to none of its rows, so no
word spells a command. -/
namespace Sys2Proof

/-- The command that a table word spells: none, for every word. -/
def decodeTableWord (_nbits _w : Nat) : Option Instr := none

end Sys2Proof
end

