-- ==== Sys2Proof/Config.lean ====
section
/-! DEFINITION. What the silicon fixes and the spec does not state, and the free values. Every constant here is opaque: no
proof can see its value. -/
namespace Sys2Proof.Config

/-- STEPPING, MAJOR and ROM_IMAGE of `BLK_VERSION`: "Fixed" in R498 without a value. -/
opaque stepping : BitVec 8
opaque major : BitVec 8
opaque romImage : BitVec 8

/-- The words of the microcode ROM, its signature block among them: ROM contents are internal to the Spindle (R335). -/
opaque romWord : Nat → BitVec 144

/-- Free values, by the number of the draw (State.tm.free): a value that the spec says is not defined or does not state. -/
opaque freeWord : Nat → BitVec 64
/-- Whether a byte of a write that was answered with ERROR holds the new value (R459), by draw and address. -/
opaque landed : Nat → Nat → Bool
/-- Whether the slice counter was read since its last "first" event (R156, log 77): by event and slice, value, serial of raises. -/
opaque readSince : Nat → Nat → Nat → Bool

end Sys2Proof.Config
end

