-- ==== Sys2Proof/Machine/State.lean ====
section
/-! DEFINITION. The state of the block: every register, table, queue and mode the spec gives it, as plain data. A table is
a finite list of (number, entry); an entry that is not listed has its default, which is its value at reset. -/
namespace Sys2Proof.Machine

/-! ### Time unit and time-stamps (03) -/

/-- A T96 time (R66): seconds modulo 2^48, nanoseconds below 10^9, fraction in units of 2^-16 ns. -/
structure T96 where
  sec : Nat := 0
  ns : Nat := 0
  frac : Nat := 0
deriving DecidableEq, Repr

/-- A change that waits for the realignment boundary (R70): the ring whose instruction made it, and what it does. -/
inductive TimeChange where
  | set (t : T96)
  | step (off : Int)
  | slew (off : Int) (mag : Nat)
  | rate (r : Int)
  /-- the load of R488 from the starter counter -/
  | starter
  /-- the first step of a joining or merging member (R431, R442) -/
  | stackStep (off : Int)
deriving DecidableEq, Repr

/-- A setting of `PPS_OUT` (R101): width in µs, offset in ns. -/
structure PpsSet where
  en : Bool := false
  always : Bool := false
  width : Nat := 100000
  offset : Int := 0
deriving DecidableEq, Repr

/-- The course of the time from instant `at_` on, as it stood then: time in units of 2^-48 ns, the rate and the slew of R69, and the sum of
the steps (R234); `run` is clear while the time unit has no clock. -/
structure TimeMark where
  at_ : Nat
  base : Int
  rate : Int := 0
  left : Nat := 0
  mag : Nat := 0
  neg : Bool := false
  run : Bool := true
  acc : Int := 0
deriving DecidableEq, Repr

/-- The time unit (R69 to R76, R79, R83, R101 to R104). -/
structure TimeUnit where
  sec : Nat := 0
  ns : Nat := 0
  sub : Nat := 0
  rate : Int := 0
  slewLeft : Nat := 0
  slewMag : Nat := 0
  slewNeg : Bool := false
  /-- a slew has begun and not yet reached zero (R72) -/
  slewing : Bool := false
  /-- a step has taken effect since power-up (R74, R76) -/
  stepped : Bool := false
  holdover : Bool := false
  /-- TU cycles since the domain powered up (R70) -/
  cycles : Nat := 0
  pend : List (Nat × TimeChange) := []
  /-- RESULT of the change last applied for a ring (R72, R73, R324) -/
  result : Tbl (BitVec 64) := []
  /-- sum of the steps made, in units of 2^-16 ns, which R234 subtracts -/
  stepAcc : Int := 0
  /-- the setting written last, the one before it, and the instant of the write (R101, R324) -/
  pps : PpsSet := {}
  ppsPrev : PpsSet := {}
  ppsSetAt : Option Nat := none
  ppsOut : Bool := false
  /-- instant of the last rising edge, the width and the setting it was made under (R101, R324) -/
  ppsRise : Nat := 0
  ppsNowWidth : Nat := 100000
  ppsInEn : Bool := false
  capture : T96 := {}
  captureAt : Option Nat := none
  captureHi : BitVec 32 := 0
  /-- TU cycle of the last loss or return of the reference (R75) -/
  refAt : Nat := 0
  /-- the time has reached a whole second plus the offset in this nanosecond (R101) -/
  ppsDue : Bool := false
  /-- the model's own: where the course of the time changed, newest first, from which a past instant's time is told (R73, R80) -/
  marks : List TimeMark := []
  /-- last stamp of each port and direction since the last step, keyed 2·port + (1 for transmit), in units of 2^-16 ns (R83) -/
  lastStamp : Tbl (Option Int) := []
  /-- error of each lane clock's shadow against the time unit, in units of 2^-16 ns: lane n's receive shadow at n, lane group g's transmit
  shadow at 32 + g (R79) -/
  shadow : Tbl Int := []
deriving DecidableEq, Repr

/-- The starter time counter of AON (R486): nanoseconds counted, the cycle phase of 2.5 ns and the trim's base. -/
structure Starter where
  running : Bool := false
  /-- time in units of 2^-16 ns -/
  t : Nat := 0
  trimAt : Nat := 0
  trimT : Nat := 0
deriving DecidableEq, Repr

/-- The model's clocks. -/
structure Time where
  /-- real nanoseconds since the model's start -/
  now : Nat := 0
  /-- the free-running count of R229 -/
  count : Nat := 0
  /-- the TU_NOW_HI latch of R104 -/
  nowHi : BitVec 32 := 0
  /-- number of free values drawn (the model's own) -/
  free : Nat := 0
deriving DecidableEq, Repr

/-- An entry of a transmit time-stamp queue (R86, R87). -/
structure TsqEntry where
  /-- the frame it stands for (the model's own, so that a cut or a stop later marks it) -/
  fid : Nat
  id : BitVec 16
  quality : Quality
  oneStep : Bool
  preempted : Bool
  aborted : Bool
  t : T96
deriving DecidableEq, Repr
/-! ### Command rings (10) -/

/-- STATE of `CR_STATE` (R269). -/
inductive RingState where
  | disabled | running | waiting | halted | stalled
deriving DecidableEq, Repr

/-- A command completion record (R277), less the ring's part that follows from it. -/
structure CmdRecord where
  status : BitVec 8
  opcode : BitVec 8
  tag : BitVec 16
  index : BitVec 17
  linked : Bool := false
  irq : Bool := false
  result : BitVec 64 := 0
deriving DecidableEq, Repr

/-- A `WAIT` in progress (R281): its command, its opening serial (EVENT), its start and the T96 target. -/
structure WaitInfo where
  cmd : Cmd
  openSerial : Nat
  startCount : Nat
  startNow : Nat
  index : BitVec 17
  linked : Bool
deriving DecidableEq, Repr

/-- The grant of a Tenant ring (R286). -/
structure Grant where
  firstBob : Nat := 0
  bobs : Nat := 0
  firstSkein : Nat := 0
  skeins : Nat := 0
  window : Nat := 0
deriving DecidableEq, Repr

/-- One command ring: its registers (R269) and the Spindle's place in it (R270 to R284). -/
structure Ring where
  enable : Bool := false
  priv : BitVec 2 := 1
  sizeLog2 : BitVec 4 := 3
  base : BitVec 50 := 0
  cplBase : BitVec 50 := 0
  hostIdx : BitVec 17 := 0
  blockIdx : BitVec 17 := 0
  cplHostIdx : BitVec 17 := 0
  cplBlockIdx : BitVec 17 := 0
  state : RingState := .disabled
  idxErr : Bool := false
  pushRej : Bool := false
  tag : BitVec 16 := 0
  /-- ENABLE was cleared while a command or group was in progress (R270). -/
  stopping : Bool := false
  /-- the record written and not yet acknowledged (R273) -/
  record : Option CmdRecord := none
  /-- the record outstanding is the one of R349, which advances no command index -/
  iirRecord : Bool := false
  /-- a multi-step instruction of the ring is in progress (R279) -/
  held : Bool := false
  wait : Option WaitInfo := none
  /-- commands of the linked group still to start (R283); 0 outside a group -/
  left : Nat := 0
  /-- the status that ends the rest of the group without acting (R283, R284) -/
  skip : Option (BitVec 8) := none
  /-- HALTED follows the group (ABORT_RING of R284) -/
  haltAfter : Bool := false
  /-- the next command is not the first of its group -/
  inGroup : Bool := false
  /-- serial of raises from which a `WAIT` started now would look, and at the start of the last command (R281) -/
  openSerial : Nat := 0
  lastSerial : Option Nat := none
  /-- commands completed, and the count each ring must reach before a fence that is next here may start (R282) -/
  completed : Nat := 0
  fenceNeed : List Nat := []
  grant : Grant := {}
  /-- pushed copies of commands by slot (R272) -/
  pushed : Tbl Octets := []
deriving DecidableEq, Repr

/-! ### The Spindle (12) -/

/-- What a journal entry waits for (R339, R346). -/
inductive Cond where
  | ready
  /-- the domains of R292 -/
  | domains (ds : List Nat)
  /-- the realignment boundary of R70, for the pending change of a ring -/
  | boundary
  | portDrained (p : Nat)
  | bobbinDrained (b : Nat)
  | ruleDrain (k : Nat)
  | checkEnd (ch : Nat)
  | flushEnd
  | testEnd (d : Nat)
  | margin (lane : Nat) (since : Nat)
  | stackReply (r : Nat)
  /-- the admission test that runs (R293) -/
  | admFree
  /-- the fabric's answer to the instruction's read or write (R339) -/
  | fabric
  | never
deriving DecidableEq, Repr

/-- A journal entry (R346): a ring's instruction between two of its steps, or a block task. -/
structure JEntry where
  ring : Nat
  task : Bool := false
  opcode : Nat
  cmd : Cmd
  index : BitVec 17 := 0
  linked : Bool := false
  step : Nat := 0
  cond : Cond := .ready
  stage : Nat := 0
  progress : BitVec 64 := 0
  scratch : List Nat := []
  /-- instant from which the same condition has been waited for, and whether R351's event was raised for it -/
  since : Nat := 0
  stalled : Bool := false
deriving DecidableEq, Repr

/-- One slot of the interrupted-instruction record (R348). -/
structure IirSlot where
  valid : Bool := false
  reported : Bool := false
  cause : BitVec 2 := 0
  opcode : BitVec 8 := 0
  tag : BitVec 16 := 0
  object : BitVec 24 := 0
  sub : BitVec 8 := 0
  step : BitVec 24 := 0
  index : BitVec 17 := 0
  progress : BitVec 64 := 0
  /-- the slot has held a block task, and reads TASK 1 -/
  task : Bool := false
deriving DecidableEq, Repr

/-- The full result of the last admission test (R294). -/
structure AdmResult where
  reason : Nat := 0
  status : BitVec 8 := 0
  candValid : Bool := false
  failValid : Bool := false
  candidate : Nat := 0
  failContract : Nat := 0
  failT : Nat := 0
  margin : Nat := 0
  dFab : Nat := 0
  psCells : Nat := 0
  rxReserve : Nat := 0
deriving DecidableEq, Repr

/-- An admission test between its steps (R345): its ring, its verdict on the contracts and terms of its first step, and the steps to come. -/
structure AdmRun where
  ring : Nat
  result : AdmResult
  left : Nat
deriving DecidableEq, Repr

/-- The Spindle. -/
structure Spindle where
  /-- out of its ROM check (R336) -/
  released : Bool := false
  /-- the ROM check failed (R337) -/
  heldState : Bool := false
  journal : List JEntry := []
  /-- the ring whose linked group holds the Spindle (R283) -/
  owner : Option Nat := none
  /-- the ring whose `SYS.RESET` is waiting to start, or runs (R334) -/
  resetBy : Option Nat := none
  /-- the soft reset's 64 cycles run (R477) -/
  inSoftReset : Bool := false
  /-- a T4 claim selected and not yet cleared (R355) -/
  t4Claim : Option Nat := none
  /-- the last unit of work was a step (R341) -/
  lastStep : Bool := false
  /-- the ring served last (R280) -/
  lastRing : Nat := 7
  adm : AdmResult := {}
  admRun : Option AdmRun := none
  iir : Tbl IirSlot := []
deriving DecidableEq, Repr
/-! ### Interrupt controller (13) -/

/-- Settings, bits and gate of one group (R352, R354, R357, R362). `lastOpen` is the instant of the gate's last opening,
from which the hold-off counter follows (none: saturated). Bit 4 of `targets` is T4; R355 sets it for G59 and G62. -/
structure IrqGroup where
  pend : BitVec 32 := 0
  en : BitVec 32 := 0
  t4 : BitVec 32 := 0
  prio : BitVec 4 := 0
  targets : BitVec 5 := 0
  holdoff : BitVec 16 := 0
  wake : Bool := false
  gateOpen : Bool := false
  lastOpen : Option Nat := none
  /-- the T4 pending bits as step 4 of the last AO cycle left them (R355) -/
  t4Seen : BitVec 32 := 0
deriving DecidableEq, Repr

/-- One target T0 to T3 (R360 to R365). `service` holds (source, priority at its claim). -/
structure IrqTarget where
  service : List (Nat × Nat) := []
  eoiErr : Bool := false
  sleepHeld : Bool := false
  sleepGranted : Bool := false
deriving DecidableEq, Repr

/-- One sideband input (R363). `since` is the instant of its enabling or of the last accepted change. -/
structure EvtFilter where
  len : BitVec 8 := 1
  en : Bool := false
  level : Bool := false
  since : Nat := 0
deriving DecidableEq, Repr

/-- The interrupt controller. -/
structure Irq where
  group : Tbl IrqGroup := []
  target : Tbl IrqTarget := []
  filter : Tbl EvtFilter := []
  /-- raises made since reset, and the number of the last raise of each source (the model's own, for R281) -/
  serial : Nat := 0
  lastRaise : Tbl Nat := []
  /-- lowest wake-capable group whose enabled source this command raised (R364); settled at its end -/
  wakeHit : Option Nat := none
  /-- the outputs of T0 to T4, and `WAKE_OUT`, as step 4 of the last AO cycle decided them (R356) -/
  out : BitVec 5 := 0
  wakeOut : Bool := false
deriving DecidableEq, Repr
/-! ### Power (14) -/

/-- State of a switched domain (R367). -/
inductive DomState where
  | off | waking | on | retained | failed
deriving DecidableEq, Repr

/-- Where a power-down stands (R372, R373): phases 1 and 2 read ON; the rest read OFF or RETAINED. -/
inductive DownPhase where
  | none | quiesce | save | isolated | requestLow | holdoff
deriving DecidableEq, Repr

/-- One switched domain: its state, its handshake (R465) and the instants its timers count from. -/
structure Domain where
  st : DomState := .off
  onFio : Bool := false
  phase : DownPhase := .none
  req : Bool := false
  ret : Bool := false
  ack : Bool := false
  pgood : Bool := false
  /-- failed requests of this wake (R388) -/
  tries : Nat := 0
  /-- a request was withdrawn and its repeat is due (R388) -/
  retrying : Bool := false
  /-- the wake ended before the normal clock toggled, and the domain switches itself (R386) -/
  selfSwitch : Bool := false
  /-- the wake is from RETAINED and its check is due (R377) -/
  checkDue : Bool := false
  reqAt : Nat := 0
  isoAt : Nat := 0
  goodAt : Nat := 0
  offAt : Nat := 0
  /-- instant of the event that began the present phase or withdrawal -/
  since : Nat := 0
deriving DecidableEq, Repr

/-- Block sleep (R379 to R384). -/
inductive Sleep where
  | awake | entry | asleep | waking
deriving DecidableEq, Repr

/-- Edge state (R474) with power present. -/
inductive Edge where
  | reset | held | live
deriving DecidableEq, Repr

/-- The kinds of reset in force at the edges (R476). -/
inductive ResetKind where
  | cold | block | soft
deriving DecidableEq, Repr

structure WakeSrc where
  kind : Nat := 0
  num : Nat := 0
deriving DecidableEq, Repr

/-- Where start-up stands (R483). -/
inductive StartUp where
  | inReset | bootSet | romCheck | done
deriving DecidableEq, Repr

/-- Power, sleep, edges, resets (14, 18, 19). -/
structure Power where
  dom : Tbl Domain := []
  /-- votes of `POWER.VOTE` by domain, one bit per ring (R369) -/
  vote : Tbl (BitVec 8) := []
  retainMask : BitVec 24 := BitVec.allOnes 24
  releaseMask : BitVec 16 := BitVec.allOnes 16
  /-- the masks as the present or last sleep entry found them (R375) -/
  retainNow : BitVec 24 := BitVec.allOnes 24
  releaseNow : BitVec 16 := BitVec.allOnes 16
  linkMask : BitVec 32 := 0
  frameMask : BitVec 32 := 0
  evtMask : BitVec 16 := 0
  timerEn : Bool := false
  timerMs : BitVec 32 := 0
  lastWake : WakeSrc := {}
  /-- instant of the wake event that the record holds (R382) -/
  wakeAt : Option Nat := none
  sleep : Sleep := .awake
  /-- isolation instant of the last sleep entry -/
  isoAt : Nat := 0
  /-- domains in the sleep set (R380) and domains that a wake waits for (R384) -/
  sleepSet : List Nat := []
  wakeSet : List Nat := []
  /-- retention CRC slots: 0 to 15 for ST banks, 16 to 23 for BC banks (R376) -/
  slot : Tbl (BitVec 32) := []
  slotValid : BitVec 24 := 0
  /-- every BC bank that passed has its indices back (R377) -/
  indexOpen : Bool := true
  notice : Bool := false
  edge : Edge := .reset
  resetKind : ResetKind := .cold
  lastReset : BitVec 2 := 0
  starter : Bool := false
  softHold : Bool := false
  startUp : StartUp := .inReset
  /-- the whole boot set still holds the votes of step 3 (R483, log 22) -/
  bootHeld : Bool := false
  /-- instants of the start and end of each cause interval of R235, as values of the free-running count -/
  lateReset : List (Nat × Option Nat) := []
  latePower : List (Nat × Nat × Option Nat) := []
  /-- domains that became FAILED and for which the Spindle's routine has not yet acted (R355, R389) -/
  failDue : List Nat := []
  /-- instants at which the last cold or block reset, and the last soft reset's 64 cycles, began -/
  resetAt : Nat := 0
  softAt : Nat := 0
  /-- the tally rows have been read (R483) -/
  talliesRead : Bool := false
deriving DecidableEq, Repr
/-! ### Ports (02) -/

/-- Lane modes of R24. -/
inductive LaneMode where
  | l224 | l112 | l56 | l25 | l10
deriving DecidableEq, Repr

/-- FEC of R24. -/
inductive Fec where
  | none | rs544 | rs528 | clause74
deriving DecidableEq, Repr

/-- Operands of `PORT.DEFINE` (R299), and whether the port is the plied port of R444. -/
structure PortDef where
  mode : LaneMode
  width : Nat
  fec : Fec
  mac : BitVec 48
  plied : Bool := false
deriving DecidableEq, Repr

/-- Flow-control mode (R38, R39). -/
inductive FcMode where
  | none | pause | pfc
deriving DecidableEq, Repr

/-- Preemption setting (R37, R301). -/
inductive Preempt where
  | off | verify | noVerify
deriving DecidableEq, Repr

/-- `PORT.SET` sub-id 0 (R301), with the values of R28, R30, R37, R52 after `PORT.DEFINE`. -/
structure LineSet where
  m : Nat := 1536
  linkHold : Nat := 10
  fcsPass : Bool := false
  fcsKeep : Bool := false
  fc : FcMode := .none
  preempt : Preempt := .off
  lpiEn : Bool := false
  xo : Bool := true
  verifyMs : Nat := 10
  lpiIdle : Nat := 8
  pbDepth : Nat := 0
  pbFill : Nat := 0
  histRx : Bool := false
  fecDegraded : Nat := 0
deriving DecidableEq, Repr

/-- A one-step template (R94). -/
structure OneStep where
  enable : Bool := false
  residence : Bool := false
  matchOffset : Nat := 0
  matchValue : BitVec 16 := 0
  ptpOffset : Nat := 0
  udpCsum : Nat := 0
  typeMask : BitVec 16 := 0
deriving DecidableEq, Repr

/-- A TPID of a transmit profile (R306). -/
inductive Tpid where
  | value (v : BitVec 16)
  | custom
deriving DecidableEq, Repr

/-- A transmit tag profile (R47, R306). -/
structure TagProfile where
  tpid0 : Tpid := .value 0
  tci0 : BitVec 16 := 0
  tpid1 : Tpid := .value 0
  tci1 : BitVec 16 := 0
  tpid2 : Tpid := .value 0
  tci2 : BitVec 16 := 0
  count : Nat := 0
  pcpFromClass : Bool := false
  redKind : Nat := 0
  stream : Nat := 0
deriving DecidableEq, Repr

/-- The receive and redundancy profiles and the custom TPID (R49, R111, R306). -/
structure RxProfile where
  rm8100 : Bool := false
  rm88a8 : Bool := false
  rmCustom : Bool := false
  count : Nat := 0
  rxKind : Nat := 0
  dupMark : Bool := false
  remove : Bool := false
  lan : Nat := 0
  path : Nat := 0
  custom : BitVec 16 := 0
deriving DecidableEq, Repr

/-- `PORT.SHED` (R303). MODE 0 OFF, 1 AUTO, 2 FIXED. -/
structure ShedPolicy where
  mode : Nat := 0
  width : Nat := 0
  hold : Nat := 0
  low : Nat := 0
  grow : Nat := 0
deriving DecidableEq, Repr

/-- `TABLE.LEARN` of a port (R321). -/
structure LearnSet where
  en : Bool := false
  perVlan : Bool := false
  flood : Bool := false
  fid : Nat := 0
  floodGroup : Nat := 0
deriving DecidableEq, Repr

/-- The wake-frame filter of a port (R325, R381). -/
structure WakeFilter where
  pattern : BitVec 64 := 0
  mask : BitVec 64 := 0
  offset : Nat := 0
  en : Bool := false
deriving DecidableEq, Repr

/-- The settings of a port, kept in AON (R504). -/
structure PortSet where
  line : LineSet := {}
  /-- class c at bits [3c+2:3c] (R39); c mod 8 after `PORT.DEFINE` -/
  pfcMap : BitVec 48 := 0xFAC688FAC688
  genMask : BitVec 16 := 0
  xoffDelay : Nat := 0
  parse : Nat := 0
  defClass : Nat := 0
  /-- PCP p at bits [4p+3:4p] (R142) -/
  pcpMap : BitVec 32 := 0x76543210
  oneStep : Tbl OneStep := []
  tag : Tbl TagProfile := []
  rx : RxProfile := {}
  shed : ShedPolicy := {}
  learn : LearnSet := {}
  wake : WakeFilter := {}
deriving DecidableEq, Repr

/-- States of R59. -/
inductive ShedState where
  | full | proposed | agreed | switching | shed
deriving DecidableEq, Repr

/-- Result of a lane training (R464). -/
inductive Training where
  | idle | running | done | failed
deriving DecidableEq, Repr

/-- Verification of preemption (R37): mPackets sent so far, or its end. -/
inductive Verify where
  | idle | waiting (sent : Nat) | failed | active
deriving DecidableEq, Repr

/-- A control frame of the block's own (R46). -/
inductive OwnFrame where
  | pause (q : BitVec 16)
  | pfc (enable : BitVec 8) (quanta : List (BitVec 16))
  | shed (octets : Octets)
  | heartbeat (octets : Octets)
  | time (octets : Octets)
  | stack (octets : Octets)
deriving DecidableEq, Repr

/-- What the transmitter of a port is doing (R255, R267). -/
inductive Tx where
  | idle
  /-- a frame, by its id -/
  | frame (fid : Nat)
  /-- a control frame of the block's own -/
  | own (f : OwnFrame)
  /-- a verify or respond mPacket (R37) -/
  | mpacket (respond : Bool)
deriving DecidableEq, Repr

/-- What a port in loopback has sent and not yet received: a frame with its FCS and how it comes back through the merge sublayer, or an
mPacket (R332). -/
inductive Echoed where
  | frame (octets : Octets) (asm : Assembly)
  | mpacket (respond : Bool)
deriving DecidableEq, Repr

/-- An XOFF in force for a class (R45). -/
structure XoffState where
  /-- instant from which delivery has been held back -/
  since : Option Nat := none
  /-- XOFF was sent, last at this instant -/
  sentAt : Option Nat := none
deriving DecidableEq, Repr

/-- The shedding machine of a port (R54 to R61). -/
structure Shed where
  st : ShedState := .full
  /-- the state before the exchange -/
  prev : ShedState := .full
  seq : BitVec 8 := 0
  txn : BitVec 16 := 0
  target : Nat := 8
  initiator : Bool := false
  readySent : Bool := false
  readyGot : Bool := false
  /-- READY is to be sent, and the switch follows it; DONE is to be sent before any other frame (R55, R59, log 79) -/
  readyDue : Bool := false
  doneDue : Bool := false
  /-- instant of the last state change -/
  since : Nat := 0
  /-- earliest instant of the next REQUEST -/
  notBefore : Nat := 0
  peerOffered : Bool := false
  lastOffer : Nat := 0
  /-- windows in a row below SHED_LOW, and octets sent in the present window -/
  lowWindows : Nat := 0
  octets : Nat := 0
  windowAt : Nat := 0
  /-- MODE OFF was set on the shed port, which proposes to grow until it has its eight lanes (R303) -/
  growOff : Bool := false
deriving DecidableEq, Repr

/-- The moving state of a port's line, MAC and Whorl. -/
structure Line where
  /-- alignment lock with no local or remote fault, and the instant it was gained or lost (R28, R29) -/
  locked : Bool := false
  lockAt : Nat := 0
  up : Bool := false
  upAt : Nat := 0
  training : Training := .idle
  trainFailAt : Nat := 0
  laneDone : Tbl Bool := []
  width : Nat := 0
  verify : Verify := .idle
  verifyAt : Nat := 0
  /-- respond mPackets still to send (R37) -/
  respondDue : Nat := 0
  verifyDue : Bool := false
  /-- expiry of each class's hold timer (R40) and instant from which its hold may start (R41), in real ns -/
  holdEnd : Tbl Nat := []
  holdFrom : Tbl Nat := []
  /-- what each hold timer held when it was last loaded, in 1/1000 bit times, and that instant (R40) -/
  holdBits : Tbl (Nat × Nat) := []
  /-- the class is held (R41) -/
  held : BitVec 16 := 0
  heldSince : Option Nat := none
  /-- classes whose hold waits for the end of the frame that was in transmission at the reception instant, with that frame (R41) -/
  armed : List (Nat × Nat) := []
  /-- X and the bucket of R43, in 8 ns units, with the fraction and instant of the last refill -/
  holdX : Nat := 0
  bucket : Nat := 0
  bucketFrac : Nat := 0
  bucketAt : Nat := 0
  breaches : List (Nat × Nat) := []
  lpi : Bool := false
  lpiAt : Nat := 0
  waking : Bool := false
  /-- instant at which something eligible, or a control frame, was last there to send (R52) -/
  idleSince : Nat := 0
  xoff : Tbl XoffState := []
  /-- receive bobbins that ran out of buffers on a frame of this port, each with the frame's class (R45) -/
  dry : List (Nat × Nat) := []
  own : List OwnFrame := []
  /-- instant of the last own control frame (R46) -/
  ownAt : Option Nat := none
  tx : Tx := .idle
  /-- instants of the present transmission's start and nominal end (R255) -/
  txAt : Nat := 0
  txEnd : Nat := 0
  suspended : Option Nat := none
  /-- a cut was asked for, and when (R267) -/
  cutAsked : Bool := false
  /-- the time-stamp point of the control frame in transmission has passed (R78) -/
  pointDone : Bool := false
  cutAt : Nat := 0
  /-- slot of the calendar's last boundary (R256) -/
  cur : Nat := 0
  /-- frames held back under R38 and counted, and whether the event of R65 was raised since preemption became inactive -/
  beHeld : List Nat := []
  beHeldEvt : Bool := false
  /-- bobbin, demoted and core-stream member served last, per skein (R264) -/
  rrSkein : Tbl Nat := []
  shed : Shed := {}
  tsq : List TsqEntry := []
  /-- what was sent in loopback and has not yet come back, oldest first (R332) -/
  echo : List Echoed := []
  tsqOvf : Bool := false
  tsqHi : BitVec 64 := 0
deriving DecidableEq, Repr

/-- Ports. -/
structure Ports where
  defs : Tbl (Option PortDef) := []
  set : Tbl PortSet := []
  enabled : BitVec 32 := 0
  /-- `PORT.DOWN` waits for its drain (R300) -/
  downing : BitVec 32 := 0
  /-- the port was enabled as a starter port (R487) -/
  starterPort : BitVec 32 := 0
  line : Tbl Line := []
deriving DecidableEq, Repr

/-- Counters (R62, R63, R125, R146, R155, R185, R220, R251, R457), by object and index. -/
structure Counters where
  /-- 96·p + i -/
  port : Tbl (BitVec 64) := []
  /-- 96·p + i: nanoseconds that a counter of time has beyond its whole units of 8 ns -/
  rest : Tbl Nat := []
  /-- 32·p + bin -/
  hist : Tbl (BitVec 64) := []
  /-- 13·k + i -/
  slice : Tbl (BitVec 64) := []
  /-- 4·k + i -/
  csi : Tbl (BitVec 64) := []
  /-- 8·b + i -/
  bank : Tbl (BitVec 64) := []
  /-- 2·(4096·k + i) for frames, + 1 for octets -/
  rule : Tbl (BitVec 64) := []
  /-- 7·stream + i -/
  stream : Tbl (BitVec 64) := []
  /-- 5·p + i -/
  red : Tbl (BitVec 64) := []
  station : Tbl (BitVec 64) := []
  /-- "first" events raised and not yet armed again (R126, R156, R186, R252) -/
  first : List (Nat × Nat) := []
deriving DecidableEq, Repr
/-! ### Redundancy streams (04) -/

/-- A stream's fields (R106) and recovery state (R117 to R119). -/
structure StreamEntry where
  genEn : Bool := false
  genDesc : Bool := false
  genSeq : BitVec 16 := 0
  recEn : Bool := false
  algMatch : Bool := false
  histLen : Nat := 0
  resetMs : Nat := 0
  idKind : Nat := 0
  idVid : Nat := 0
  idAddr : BitVec 48 := 0
  recSeq : BitVec 16 := 0
  hist : BitVec 64 := 0
  takeAny : Bool := false
  /-- free-running count at the last frame that passed (R119) -/
  lastPass : Nat := 0
deriving DecidableEq, Repr

/-- The stream table and the stream index: slot to stream number (R115). -/
structure Streams where
  tab : Tbl StreamEntry := []
  slot : Tbl (Option Nat) := []
  /-- free-running count of the last visit of the redundancy sweep to each stream (R119) -/
  visit : Tbl (Option Nat) := []
deriving DecidableEq, Repr
/-! ### Parser, rules, spreading (05) -/

/-- A rule as its 144-byte image holds it (R140, R141). -/
structure Rule where
  value : BitVec 512 := 0
  mask : BitVec 512 := 0
  action : BitVec 128 := 0
deriving DecidableEq, Repr

/-- Destination of a frame (R141, R165). -/
inductive Dest where
  | bobbin (b : Nat)
  | skein (k : Nat)
  | spread (g : Nat)
  | stream
  | drop
deriving DecidableEq, Repr

/-- A received frame between the MAC and its delivery: everything that the key, the record or the metadata needs. -/
structure RxFrame where
  port : Nat
  /-- the frame as it reaches the parser, without its FCS -/
  body : Octets
  /-- the FCS octets, kept for delivery when FCS-keep is on -/
  fcs : Octets := []
  /-- length as received, FCS included -/
  rawLen : Nat
  fcsBad : Bool := false
  runt : Bool := false
  truncated : Bool := false
  duplicate : Bool := false
  removed : Nat := 0
  tci : BitVec 16 := 0
  tagged : Bool := false
  vid : Nat := 0
  pcp : Nat := 0
  stream : Nat := 0
  seq : BitVec 16 := 0
  red : Nat := 0
  stamp : T96 := {}
  quality : Quality := .unset
  /-- stamp point as time-unit time with the steps taken out, and as a free-running count (R233, R234) -/
  startAcc : Int := 0
  startCount : Nat := 0
  unknownDa : Bool := false
  daDest : BitVec 16 := 0
  epoch : Nat := 0
  cls : Nat := 0
  colour : Nat := 0
  dest : Option Dest := none
  contract : Option Nat := none
  passTag : Nat := 0
  tmpl2 : Option Nat := none
  tmpl1 : Option Nat := none
  /-- flags of the pass: window by extraction, window by checks, tag depth, length conflict, checksum bad -/
  winX : Bool := false
  winC : Bool := false
  tagDepth : Bool := false
  lenConf : Bool := false
  csumBad : Bool := false
  l3chk : Bool := false
  l4chk : Bool := false
  key : BitVec 512 := 0
deriving DecidableEq, Repr

/-- Slice k's parser memories are keyed 64·k + t and 4096·(2·k + bank) + i. -/
structure Parsers where
  tmpl : Tbl (BitVec 512) := []
  rule : Tbl Rule := []
  active : BitVec 4 := 0
  /-- the ring whose commit of the slice waits for its drain, and COPY (R151) -/
  commit : Tbl (Option Bool) := []
  recirc : Tbl (List RxFrame) := []
deriving DecidableEq, Repr

structure SpreadGroup where
  base : Nat := 0
  size : Nat := 0
deriving DecidableEq, Repr

structure Spreads where
  group : Tbl SpreadGroup := []
  entry : Tbl (BitVec 32) := []
deriving DecidableEq, Repr
/-! ### Station table (06) -/

/-- An entry (R159), its CHOICE, GEN and Q as stored. -/
structure StnEntry where
  valid : Bool := false
  static : Bool := false
  touched : Bool := false
  choice : Bool := false
  gen : Bool := false
  held : Bool := false
  stamp : Nat := 0
  age : Nat := 0
  dest : BitVec 16 := 0
  q : Nat := 0
deriving DecidableEq, Repr

/-- A learn request (R167). -/
structure LearnReq where
  fid : Nat
  mac : Nat
  dest : BitVec 16
deriving DecidableEq, Repr

/-- A control row of an ST bank (R179). -/
structure HashRow where
  s1 : Nat := 1
  s2 : Nat := 0x5A5A5A5
  s1n : Nat := 1
  s2n : Nat := 0x5A5A5A5
  tg : Bool := false
  phase : Nat := 0
  ptr : Nat := 0
deriving DecidableEq, Repr

/-- Entries are keyed 8·bucket + slot. The control row of every bank that is ON stands here; `kept` holds that of each RETAINED bank. -/
structure Station where
  entry : Tbl StnEntry := []
  s1 : Nat := 1
  s2 : Nat := 0x5A5A5A5
  s1n : Nat := 1
  s2n : Nat := 0x5A5A5A5
  tg : Bool := false
  phase : Nat := 0
  ptr : Nat := 0
  kept : Tbl HashRow := []
  rotor : Nat := 0
  fifo : List LearnReq := []
  /-- hold tick counter, the free-running count of its last advance, the position of the hold sweep and the tick at which its round began (R170) -/
  tick : Nat := 0
  tickAt : Nat := 0
  holdPos : Nat := 0
  holdBase : Nat := 0
  h : Nat := 1
  exportEn : Bool := false
  exportBob : Nat := 0
  period : Nat := 0
  ageInit : Nat := 1
  agePos : Nat := 0
  /-- when the next visit of the age sweep is due, in units of 2^-16 ns of the free-running count (R174) -/
  ageDue : Nat := 0
  seq : BitVec 32 := 0
deriving DecidableEq, Repr
/-! ### Bobbins and skeins (07) -/

/-- Kind of a bobbin (R187). -/
inductive BobKind where
  | none | transmit | receive | completion
deriving DecidableEq, Repr

/-- State of a bobbin (R187). -/
inductive BobState where
  | closed | opened | draining | stale
deriving DecidableEq, Repr

/-- CSTATE (R188). -/
inductive CState where
  | free | bound | withdrawn
deriving DecidableEq, Repr

/-- A bobbin: its context (R188), indices (R191), crumbs (R64) and the block's place in its ring. -/
structure Bobbin where
  kind : BobKind := .none
  st : BobState := .closed
  sizeLog2 : Nat := 0
  base : BitVec 50 := 0
  window : Nat := 0
  completion : Nat := 0
  notify : Bool := false
  skein : Nat := 0
  cstate : CState := .free
  contract : Nat := 0
  tol : Nat := 0
  hostIdx : Nat := 0
  blockIdx : Nat := 0
  crumbs : BitVec 4 := 0
  /-- index of the next transmit entry to examine, or receive descriptor to take (R195, R198) -/
  next : Nat := 0
  /-- RELEASE_TIME of the last frame accepted, in units of 2^-16 ns (R201) -/
  lastRelease : Option Nat := none
  /-- pushed descriptors not yet examined, by entry index (R210) -/
  pushed : Tbl Octets := []
deriving DecidableEq, Repr

/-- The promise of a received frame (R233): its start as time-unit time with the steps taken out and as a count, its contract
and 8·BOUND when it was promised. -/
structure Promise where
  startAcc : Int
  startCount : Nat
  contract : Nat
  bound : Nat
  /-- number of its delivery (R248) -/
  id : Nat := 0
deriving DecidableEq, Repr

/-- A record that the block has issued or will issue (R205): which entries it covers and its 32 bytes. -/
structure Rec where
  /-- source bobbin; none for a learn-event record -/
  src : Option Nat
  /-- first entry index and the number of entries of the source it covers -/
  index : Nat
  count : Nat
  bytes : Octets
  /-- a promised receive frame, whose residence ends at the issue (R233) -/
  promise : Option Promise := none
  /-- the frame whose cells are released with this record -/
  fid : Option Nat := none
deriving DecidableEq, Repr

/-- A record issued into a slot of a completion bobbin and not yet settled (R507). -/
structure Issued where
  cb : Nat
  /-- none for a record dropped under R206, whose step 3 waits its turn -/
  slot : Option Nat
  record : Rec
  acked : Bool := false
  error : Bool := false
deriving DecidableEq, Repr

/-- A data window (R189). -/
structure Window where
  base : Nat := 0
  size : Nat := 0
deriving DecidableEq, Repr

structure Bobbins where
  tab : Tbl Bobbin := []
  notify : Tbl Bool := []
  /-- crumb summary, one bit per 64 bobbins (R220) -/
  summary : Tbl Bool := []
  window : Tbl Window := []
  /-- index save area of each bobbin: HOST_IDX and BLOCK_IDX (R216, R376) -/
  save : Tbl (Nat × Nat) := []
  /-- records issued and not settled, oldest first -/
  issued : List Issued := []
  /-- records ready whose turn in their source's ring has not come (R205) -/
  ready : List Rec := []
deriving DecidableEq, Repr

/-- A skein (R218) with its place in the round robin (R263). -/
structure Skein where
  valid : Bool := false
  port : Nat := 0
  cls : Nat := 0
  quantum : Nat := 0
  enable : Bool := false
  deficit : Nat := 0
  fresh : Bool := true
deriving DecidableEq, Repr

structure Skeins where
  tab : Tbl Skein := []
  /-- the active ring of tier 5 of each port, head first (R263) -/
  ring : Tbl (List Nat) := []
  /-- the express skein served last in tier 3, per port -/
  lastExpress : Tbl Nat := []
deriving DecidableEq, Repr
/-! ### Contracts (08) and frames (08, 09) -/

/-- The image of a contract (R222, R313). -/
structure CtImage where
  rx : Bool := false
  release : Bool := false
  demoteEn : Bool := false
  streamEn : Bool := false
  cls : Nat := 0
  port : Nat := 0
  maxFrame : Nat := 0
  rate : Nat := 0
  burst : Nat := 0
  bound : Nat := 0
  rxBufLen : Nat := 0
  demoteSkein : Nat := 0
  stream : Nat := 0
  stackMask : BitVec 32 := 0
deriving DecidableEq, Repr

/-- State of a contract (R224). -/
inductive CtState where
  | free | admitted | withdrawing
deriving DecidableEq, Repr

structure Contract where
  st : CtState := .free
  img : CtImage := {}
  /-- values used by every test until the transition of R248 ends -/
  trans : Option CtImage := none
  /-- the transition covers frames, or deliveries, numbered below this -/
  transFid : Nat := 0
  bobbin : Option Nat := none
  /-- cells drawn from PS(2k) and PS(2k+1) (R506), and cells held by accepted frames (R231) -/
  draw0 : Nat := 0
  draw1 : Nat := 0
  held : Nat := 0
  tok : Nat := 0
  last : Nat := 0
  accepted : BitVec 32 := 0
  refused : BitVec 32 := 0
  demoted : BitVec 32 := 0
  late : BitVec 32 := 0
  rxNonconf : BitVec 32 := 0
  worst : Int := 0x7FFFFFFF
  /-- suspended by a stack split (R438), and the count at which its cause interval began -/
  suspended : Bool := false
  suspFrom : Nat := 0
  /-- instant at which the last instance became reachable again (R443) -/
  reachAt : Option Nat := none
  /-- cause intervals of LATE_STACK_SPLIT that have ended (R235) -/
  pastSusp : List (Nat × Nat) := []
deriving DecidableEq, Repr

structure Contracts where
  tab : Tbl Contract := []
  fabRate : Nat := 0
deriving DecidableEq, Repr

/-- Where a transmit frame stands (R253 to R267). -/
inductive TxStage where
  /-- examined, with its door decision held by a soft reset (R478) -/
  | atDoor
  /-- accepted or passed R199; waits for a pool claim -/
  | claiming
  /-- its data is being read -/
  | reading
  /-- whole in the proof store -/
  | staged
  | sending
  | suspended
  /-- the medium or the block has finished with it; its record waits -/
  | ended
deriving DecidableEq, Repr

/-- How a frame came to be sent. -/
inductive TxOrigin where
  | uncontracted
  | accepted
  | demoted
  | csi (k : Nat)
deriving DecidableEq, Repr

/-- A transmit frame in flight. -/
structure TxFrame where
  id : Nat
  origin : TxOrigin
  bobbin : Nat := 0
  index : Nat := 0
  port : Nat
  skein : Nat
  cls : Nat
  contract : Nat := 0
  /-- the descriptor (or the matching fields of R456) -/
  desc : BitVec 256 := 0
  /-- octets of data to read, the finished length and its cells -/
  len : Nat
  cells : Nat
  cells0 : Nat := 0
  stage : TxStage := .claiming
  /-- start instant as a count, its time-unit time with steps taken out, and 8·BOUND at acceptance -/
  start : Nat := 0
  startAcc : Int := 0
  bound : Nat := 0
  /-- count at which it was staged -/
  stagedAt : Nat := 0
  data : Octets := []
  /-- the finished frame, once built (R30) -/
  built : Octets := []
  sent : Nat := 0
  fragments : Nat := 0
  stampDone : Bool := false
  stamp : T96 := {}
  quality : Quality := .unset
  residence : Int := 0
  oneStep : Bool := false
  csumFlags : BitVec 6 := 0
  stream : Nat := 0
  /-- its residence exceeded its bound, and the cause of R235 -/
  exceeded : Bool := false
  late : Option (BitVec 8) := none
  /-- its bobbin's bank was lost: its record is dropped (R217) -/
  dead : Bool := false
deriving DecidableEq, Repr

structure TxPath where
  nextId : Nat := 0
  frames : List TxFrame := []
  /-- cells of the shared pool held, by slice (R258) -/
  poolHeld : Tbl Nat := []
  /-- frames whose claims wait, in order, by slice (R260) -/
  claims : Tbl (List Nat) := []
deriving DecidableEq, Repr

/-- A receive delivery in progress (R198): its buffers' bytes, the record to write and what an error changes. -/
structure RxWrite where
  id : Nat
  bobbin : Nat
  index : Nat
  count : Nat
  /-- (address, octets) of each buffer part -/
  parts : List (Nat × Octets)
  /-- the record's bytes, less CODE, LENGTH, COUNT, DELTA -/
  record : Octets
  code : BitVec 8
  frame : RxFrame
  promise : Option Promise
  /-- octets that have found no buffer yet (R198) -/
  rest : Octets := []
deriving DecidableEq, Repr

structure RxPath where
  nextId : Nat := 0
  writes : List RxWrite := []
  /-- frames that wait for hand-off, by interface (R455), each with its metadata -/
  csi : Tbl (List (Octets × BitVec 256)) := []
  /-- the last hand-off of each interface (R454) -/
  csiLast : Tbl (Option (Octets × BitVec 256)) := []
deriving DecidableEq, Repr
/-! ### Check engine (15), Ledger and tallies (16), tests (19) -/

/-- The run of a channel in progress. -/
structure CkRun where
  segs : List (Nat × Nat)
  noWait : Bool
  total : Nat
deriving DecidableEq, Repr

/-- One channel (R393). -/
structure Channel where
  width : Nat := 32
  poly : BitVec 64 := 0x1EDC6F41
  init : BitVec 64 := 0xFFFFFFFF
  refin : Bool := true
  refout : Bool := true
  xorout : BitVec 64 := 0xFFFFFFFF
  expected : BitVec 64 := 0
  compare : Bool := false
  addr : BitVec 64 := 0
  window : Nat := 0
  count : Nat := 0
  result : BitVec 64 := 0
  outcome : Nat := 0
  fabricErr : Bool := false
  bytes : Nat := 0
  run : Option CkRun := none
deriving DecidableEq, Repr

structure Checks where
  chan : Tbl Channel := []
  /-- bits of known-answer tests, channel 62 and channel 63 beside the runs (R404) -/
  extra : BitVec 64 := 0
  done : BitVec 64 := 0
  mismatch : BitVec 64 := 0
deriving DecidableEq, Repr

/-- Where a flush of the Ledger stands. -/
structure Flush where
  cause : Nat
  slot : Nat
  /-- the image being written, by (offset, byte), after its CRC -/
  image : Tbl Byte
  attempt : Nat := 0
deriving DecidableEq, Repr

/-- The Ledger's counts gathered since the last flush, by the offset of their field (R409, R413). Counters are added to
the image; WORST_MARGIN, TEMP_MAX and the TALLY_LOG records replace what it holds. -/
structure Pending where
  add : Tbl Nat := []
  /-- temperature and its time; worst margin, contract, port byte and time -/
  temp : Option (Int × T96) := none
  worst : Option (Int × Nat × Nat × T96) := none
  /-- offset and octets of records to write -/
  recs : List (Nat × Octets) := []
deriving DecidableEq, Repr

structure Ledger where
  /-- the four slots, keyed 16,384·c + x -/
  array : Tbl Byte := []
  pend : Pending := {}
  /-- the area a flush is carrying -/
  carry : Pending := {}
  interval : Nat := 15
  lastEnd : Option Nat := none
  flush : Option Flush := none
  /-- causes that wait for the running flush to end -/
  due : List Nat := []
  /-- nanoseconds of a second in which a domain read ON, carried over (R414) -/
  fraction : Tbl Nat := []
  /-- slots whose last write failed its read-back (R411) -/
  bad : BitVec 4 := 0
  /-- LD has powered up since the last cold reset (R412) -/
  looked : Bool := false
  /-- every slot was found retired, and flushes have stopped until the next cold reset (R411) -/
  worn : Bool := false
  /-- instant of the last interval flush that found every slot retired (R410, R411) -/
  wornAt : Nat := 0
  /-- fuse rows, keyed 8·tally + row (R418) -/
  fuse : Tbl (BitVec 64) := []
  /-- rows that a `TALLY.WRITE` has attempted, by tally (R418) -/
  tried : Tbl (BitVec 8) := []
  /-- the outcome, in the form of RESULT, of each domain's last deferred test, and of each port's deferred loopback at 64 + port (R331, R332,
  log 67) -/
  testRec : Tbl (BitVec 64) := []
deriving DecidableEq, Repr

/-- A self-test of a domain (R331, R491, R492). -/
inductive TestState where
  | none | deferred | running
deriving DecidableEq, Repr

structure TestRun where
  st : TestState := .none
  test : Nat := 0
  ring : Nat := 0
  noWait : Bool := false
  /-- channel taken by a known-answer test (R407) -/
  chan : Nat := 0
  result : Option (BitVec 64) := none
deriving DecidableEq, Repr

structure Tests where
  dom : Tbl TestRun := []
  /-- loopback mode of each port and a deferred one (R332) -/
  loop : Tbl Nat := []
  loopDefer : Tbl (Option Nat) := []
  /-- margining in progress by lane: its start and duration in ns (R304) -/
  margin : Tbl (Option (Nat × Nat)) := []
deriving DecidableEq, Repr
/-! ### Stack (17) -/

/-- STATE of `STK_STATUS` (R448). -/
inductive StkState where
  | none | joining | member | distaff | orphan | merging
deriving DecidableEq, Repr

/-- What an instance keeps for one stack link (R429, R433, R434). -/
structure LinkInfo where
  heard : Option Nat := none
  lossRaised : Bool := false
  /-- last TIME frame: instant, hops and sender -/
  timeAt : Option Nat := none
  hops : Nat := 0xFF
  sender : Nat := 0
  reqSeq : BitVec 16 := 0
  t1 : Int := 0
  /-- the last 16 values of d, newest first -/
  delays : List Int := []
deriving DecidableEq, Repr

/-- An admission pending at the Distaff, or awaited by an instruction (R437). -/
structure AdmPending where
  requester : Nat
  contract : BitVec 16
  mask : BitVec 32
  tag : BitVec 16
  at_ : Nat
deriving DecidableEq, Repr

/-- A stack frame sent, as its destination link and 64 octets. -/
structure StkOut where
  link : StackLink
  octets : Octets
deriving DecidableEq, Repr

/-- What an instruction that waits for a stack frame has been told (R431, R437): nothing yet, since an instant and under a
request tag; the Distaff's answer; or nothing within 1 ms. -/
inductive StkReply where
  | waiting (since : Nat) (tag : BitVec 16)
  | answered (result : Nat)
  | timeout
deriving DecidableEq, Repr

structure Stack where
  st : StkState := .none
  distaff : Nat := 0
  hops : Nat := 0xFF
  gen : Nat := 0
  members : BitVec 32 := 0
  portMask : BitVec 32 := 0
  own : BitVec 8 := 0
  /-- instant of the last heartbeat period (R428) -/
  hbAt : Nat := 0
  /-- instants of the last TIME frames and DELAY_REQ frames sent (R433, R434) -/
  timeAt : Nat := 0
  delayAt : Nat := 0
  v : Tbl (BitVec 8) := []
  /-- instant of the last change of each entry (R428) -/
  fresh : Tbl Nat := []
  /-- entries that are not stale, and those that have been so before (R429, R442) -/
  reach : BitVec 32 := 0
  ever : BitVec 32 := 0
  /-- highest generation heard of from each instance (R440) -/
  genSeen : Tbl Nat := []
  link : Tbl LinkInfo := []
  upstream : Option StackLink := none
  acc : Int := 0
  n : Nat := 0
  aPrev : Int := 0
  /-- quality is LOCKED or HOLDOVER by the stack (R431, R439, R440, R442) -/
  quality : Option Quality := none
  mergeAt : Nat := 0
  /-- offsets of the last TIME frames of a merge window, newest first -/
  offsets : List Int := []
  pending : List AdmPending := []
  /-- replies to waiting instructions, by ring -/
  reply : Tbl (Option StkReply) := []
  /-- (type, requester, tag) relayed, with the instant (R427) -/
  relayed : List (Nat × Nat × Nat × Nat) := []
  nextTag : BitVec 16 := 0
  stepOfs : Int := 0
  stepTime : BitVec 64 := 0
  /-- what a `STACK.JOIN` has met: a frame of the Distaff and its generation, the answer, the step (R431) -/
  joinHeard : Bool := false
  joinGen : Nat := 0
  joinAck : Option Nat := none
  joinStepped : Bool := false
  /-- this odd instance's LN24 to LN31 are reserved for its even partner, whose time it follows (R445) -/
  reserved : Bool := false
  /-- frames sent on the on-die bus by the last command that sent any -/
  sent : List StkOut := []
deriving DecidableEq, Repr

/-- Response of the last register access (R460). -/
inductive Resp where
  | served | unmapped | absent
deriving DecidableEq, Repr

structure RegPort where
  resp : Resp := .served
  data : List (BitVec 64) := []
deriving DecidableEq, Repr

/-- The state of the block. -/
structure State where
  tm : Time := {}
  tu : TimeUnit := {}
  st0 : Starter := {}
  cr : Tbl Ring := []
  sq : Spindle := {}
  ic : Irq := {}
  pw : Power := {}
  port : Ports := {}
  ctr : Counters := {}
  str : Streams := {}
  pc : Parsers := {}
  spr : Spreads := {}
  stn : Station := {}
  bob : Bobbins := {}
  skn : Skeins := {}
  ct : Contracts := {}
  tx : TxPath := {}
  rx : RxPath := {}
  ck : Checks := {}
  ld : Ledger := {}
  tst : Tests := {}
  stk : Stack := {}
  reg : RegPort := {}
  /-- bytes of fabric memory that the block has written -/
  mem : List Host.Cell := []
  pending : List Instr := []
deriving DecidableEq, Repr

/-- The block with cold reset in force (R474, R481): every part at its reset value, no command waiting. -/
def State.reset : State := {}

/-- The block has no fault that stops it: every failure the spec gives is a status, a completion code, an error response,
an event or an error bit, and the step goes on. -/
inductive Fault where
  /-- raised by nothing, and safe: no meaning of this block answers a fault -/
  | neverRaised
deriving DecidableEq, Repr

/-- Reasons for a refusal. -/
inductive Refusal where
  /-- answered by Machine/Dispatch.lean's arms of commands without a meaning; safe, because nothing is claimed of them -/
  | notModelled (mnemonic : String)
deriving DecidableEq, Repr

end Sys2Proof.Machine
end

