-- ==== Sys2Proof/Machine/Bits.lean ====
section
/-! DEFINITION. Octets, bit fields and the parametrised CRC of R394. -/
namespace Sys2Proof.Machine

/-- `n` octets of `v`, least significant first (R1). -/
def le (n v : Nat) : Octets := (List.range n).map (fun i => BitVec.ofNat 8 (v >>> (8 * i)))
/-- `n` octets of `v`, most significant first (R2). -/
def be (n v : Nat) : Octets := (le n v).reverse
/-- The number that octets spell, least significant first. -/
def ofLe : Octets → Nat
  | [] => 0
  | b :: t => b.toNat + 256 * ofLe t
/-- The number that octets spell, most significant first. -/
def ofBe (o : Octets) : Nat := o.foldl (fun a b => a * 256 + b.toNat) 0
/-- Octet `i`, zero beyond the end (R128). -/
def oct (o : Octets) (i : Nat) : Nat := ((o[i]?).getD 0).toNat
/-- `n` octets from `p`, most significant first, zero beyond the end (R128). -/
def octBe (o : Octets) (p n : Nat) : Nat := (List.range n).foldl (fun a i => a * 256 + oct o (p + i)) 0
/-- Bits [lo + w - 1 : lo] of a number. -/
def bits (v lo w : Nat) : Nat := (v >>> lo) % 2 ^ w
/-- One bit. -/
def bit (v i : Nat) : Bool := v.testBit i
def b2n (b : Bool) : Nat := if b then 1 else 0
/-- ceil_div of the notation chapter. -/
def ceilDiv (a b : Nat) : Nat := (a + b - 1) / b
/-- Replace octets from position `p`. -/
def patch (o : Octets) (p : Nat) (new : Octets) : Octets := o.take p ++ new ++ o.drop (p + new.length)
/-- Two's complement of `w` bits. -/
def sgn (w v : Nat) : Int := if v % 2 ^ w < 2 ^ (w - 1) then (v % 2 ^ w : Nat) else (v % 2 ^ w : Nat) - (2 ^ w : Nat)
def ofInt (w : Nat) (i : Int) : BitVec w := BitVec.ofInt w i
/-- sdiv of R435: division rounded toward zero. -/
def sdiv (x m : Int) : Int := Int.tdiv x m
/-- Low bits of `w` positions turned round. -/
def reflect (w v : Nat) : Nat := (List.range w).foldl (fun a i => a * 2 + b2n (v.testBit i)) 0

/-- One bit of R394. -/
def crcBit (w poly : Nat) (b : Bool) (reg : Nat) : Nat :=
  let t := reg * 2 % 2 ^ w
  if Bool.xor (reg.testBit (w - 1)) b then Nat.xor t poly else t

/-- One octet of R394. -/
def crcOctet (w poly : Nat) (refin : Bool) (reg : Nat) (x : Byte) : Nat :=
  (List.range 8).foldl (fun r i => crcBit w poly (if refin then x.toNat.testBit i else x.toNat.testBit (7 - i)) r) reg

/-- The computation of R394. -/
def crc (w poly init : Nat) (refin refout : Bool) (xorout : Nat) (o : Octets) : Nat :=
  let reg := o.foldl (crcOctet w poly refin) init
  Nat.xor (if refout then reflect w reg else reg) xorout

/-- CRC-32C of R115 with its initial value. -/
def crc32c (init : Nat) (o : Octets) : Nat := crc 32 0x1EDC6F41 init true true 0xFFFFFFFF o
/-- CRC-64/XZ of R336. -/
def crc64 (o : Octets) : Nat := crc 64 0x42F0E1EBA9EA3693 0xFFFFFFFFFFFFFFFF true true 0xFFFFFFFFFFFFFFFF o
/-- The check octet of R418. -/
def crc8 (o : Octets) : Nat := crc 8 0x07 0 false false 0 o
/-- The FCS of IEEE 802.3 (PRESUMED, log 17): CRC-32, sent least significant octet first. -/
def fcsOf (o : Octets) : Octets := le 4 (crc 32 0x04C11DB7 0xFFFFFFFF true true 0xFFFFFFFF o)

/-! ### Operands (R275, R289) -/

/-- Bits [lo + w - 1 : lo] of operand byte `byte` onward; operands begin at byte 8 of the command. -/
def fld (c : Cmd) (byte lo w : Nat) : Nat := bits c.ops.toNat (8 * (byte - 8) + lo) w
def fbit (c : Cmd) (byte i : Nat) : Bool := c.ops.toNat.testBit (8 * (byte - 8) + i)
/-- The mask of the operand bits an entry names, as (byte, low bit, width). -/
def opMask (l : List (Nat × Nat × Nat)) : Nat := l.foldl (fun a (b, lo, w) => Nat.lor a ((2 ^ w - 1) <<< (8 * (b - 8) + lo))) 0
/-- No reserved operand bit is set (R289). -/
def clean (c : Cmd) (l : List (Nat × Nat × Nat)) : Bool := Nat.land c.ops.toNat (2 ^ 192 - 1 - opMask l) == 0
/-- A MAC address operand: 6 octets in wire order, the first at the lowest byte (R289). -/
def fmac (c : Cmd) (byte : Nat) : BitVec 48 := BitVec.ofNat 48 (ofBe (le 6 (fld c byte 0 48)))
/-- A MAC address as an operand image gives it. -/
def macLe (m : BitVec 48) : Nat := ofLe (be 6 m.toNat)
/-- The kind and number of the command's object (R17). -/
def objKind (c : Cmd) : Nat := c.obj.toNat / 2 ^ 18
def objNum (c : Cmd) : Nat := c.obj.toNat % 2 ^ 18
def linkFlag (c : Cmd) : Bool := c.flags.toNat.testBit 0
def fenceFlag (c : Cmd) : Bool := c.flags.toNat.testBit 1
def irqFlag (c : Cmd) : Bool := c.flags.toNat.testBit 2
def onFail (c : Cmd) : Nat := bits c.flags.toNat 3 2
/-- The command's 32 bytes (R275). -/
def cmdBytes (op : Nat) (c : Cmd) : Octets :=
  le 1 op ++ le 1 c.flags.toNat ++ le 2 c.tag.toNat ++ le 3 c.obj.toNat ++ le 1 c.sub.toNat ++ le 24 c.ops.toNat

/-! ### Times -/

/-- A T96 as units of 2^-16 ns since second 0. -/
def t96n (t : T96) : Nat := (t.sec * 1000000000 + t.ns) * 65536 + t.frac
/-- Units of 2^-16 ns as a T96; seconds modulo 2^48 (R66, R73). -/
def nT96 (n : Int) : T96 :=
  let m := (n % ((2 : Int) ^ 48 * 1000000000 * 65536)).toNat
  { sec := m / 65536 / 1000000000, ns := m / 65536 % 1000000000, frac := m % 65536 }
/-- T64 (R67). -/
def t64 (t : T96) : Nat := t.frac + t.ns * 2 ^ 16 + (t.sec % 65536) * 2 ^ 48
/-- The 12 bytes of R66 as a number. -/
def t96bits (t : T96) : Nat := t.frac + t.ns * 2 ^ 16 + t.sec * 2 ^ 48
/-- The reverse. -/
def bitsT96 (v : Nat) : T96 := { sec := bits v 48 48, ns := bits v 16 30, frac := bits v 0 16 }
/-- A T96 in the order of stack frames (R426). -/
def t96wire (t : T96) : Octets := be 6 t.sec ++ be 4 t.ns ++ be 2 t.frac
/-- Full seconds restored from a T64 near `ref` (R67). -/
def restoreSec (ref sLo : Nat) : Nat :=
  let diff := (sLo + 65536 - ref % 65536) % 65536
  ((ref : Int) + (if diff ≥ 32768 then (diff : Int) - 65536 else diff)) % ((2 : Int) ^ 48) |>.toNat
/-- A T64 as units of 2^-16 ns, with its seconds restored near time `n`. -/
def t64near (n v : Nat) : Nat := (restoreSec (n / 65536 / 1000000000) (bits v 48 16) * 1000000000 + bits v 16 32) * 65536 + bits v 0 16
def qualCode : Quality → Nat
  | .locked => 0
  | .holdover => 1
  | .unset => 2
  | .starter => 3

end Sys2Proof.Machine
end

