-- ==== Sys2Proof/Machine/Flags.lean ====
section
/-! DEFINITION. Status codes (R288), completion codes (R204) and event sources (R353) under the names the spec gives them. -/
namespace Sys2Proof.Machine

/-! ### Status codes of instructions (R288) -/
def sDONE : BitVec 8 := 0x00
def sDEFERRED : BitVec 8 := 0x01
def sDONE_NOTE : BitVec 8 := 0x02
def sBAD_OPCODE : BitVec 8 := 0x10
def sBAD_OPERAND : BitVec 8 := 0x11
def sPRIVILEGE : BitVec 8 := 0x12
def sNO_OBJECT : BitVec 8 := 0x13
def sBUSY : BitVec 8 := 0x14
def sNO_ROOM : BitVec 8 := 0x20
def sREFUSED_ADMISSION : BitVec 8 := 0x21
def sTALLY_EXHAUSTED : BitVec 8 := 0x22
def sABORTED_GROUP : BitVec 8 := 0x30
def sINTERRUPTED_BY_RESET : BitVec 8 := 0x31
def sPOWER_FAILED : BitVec 8 := 0x40
def sSTACK_SPLIT : BitVec 8 := 0x41
def sINTERNAL_FAULT : BitVec 8 := 0xFF
/-- Success under R278. -/
def succeeded (st : BitVec 8) : Bool := st == sDONE || st == sDEFERRED || st == sDONE_NOTE

/-! ### Completion codes of entries and frames (R204) -/
def kOK : BitVec 8 := 0x00
def kMALFORMED_RESERVED : BitVec 8 := 0x10
def kMALFORMED_LENGTH : BitVec 8 := 0x11
def kMALFORMED_ADDRESS : BitVec 8 := 0x12
def kMALFORMED_CONTRACT : BitVec 8 := 0x13
def kMALFORMED_TIME : BitVec 8 := 0x14
def kREFUSED_NONCONFORMING : BitVec 8 := 0x20
def kREFUSED_NO_CONTRACT : BitVec 8 := 0x21
def kREFUSED_STACK_SPLIT : BitVec 8 := 0x22
def kREFUSED_PORT_DOWN : BitVec 8 := 0x23
def kLATE_PARTNER_PAUSE : BitVec 8 := 0x30
def kLATE_LINK_DOWN : BitVec 8 := 0x31
def kLATE_STACK_SPLIT : BitVec 8 := 0x32
def kLATE_POWER : BitVec 8 := 0x33
def kLATE_RESET : BitVec 8 := 0x34
def kRX_FCS : BitVec 8 := 0x40
def kRX_OUT_OF_BUFFERS : BitVec 8 := 0x41
def kRX_STARVED : BitVec 8 := 0x42
def kRX_TRUNCATED : BitVec 8 := 0x43
def kRX_DUPLICATE_DISCARDED : BitVec 8 := 0x44
def kDRAINED : BitVec 8 := 0x50
def isMalformed (k : BitVec 8) : Bool := k.toNat / 16 == 1
def isRefused (k : BitVec 8) : Bool := k.toNat / 16 == 2
def isLate (k : BitVec 8) : Bool := k.toNat / 16 == 3

/-! ### Domain numbers (R11) -/
def dLG (g : Nat) : Nat := g
def dMS (k : Nat) : Nat := 8 + k
def dPC (k : Nat) : Nat := 12 + k
def dST (m : Nat) : Nat := 16 + m
def dBC (b : Nat) : Nat := 32 + b
def dPS (m : Nat) : Nat := 40 + m
def dSQ : Nat := 48
def dCK : Nat := 49
def dTU : Nat := 50
def dSL : Nat := 51
def dHD : Nat := 52
def dLD : Nat := 53
def dCS (i : Nat) : Nat := 54 + i

/-! ### Port counters (R62) by name, those that more than one command counts -/
def cTX_ABORTED : Nat := 52
def cPAUSE_HOLD_TIME : Nat := 53
def cPAUSE_BREACHES : Nat := 54
def cPAUSE_CHARGED : Nat := 55
def cLINK_DOWNS : Nat := 56
def cSHED_CHANGES : Nat := 57
def cSHED_ABORTS : Nat := 58
def cTX_LATE : Nat := 59
def cTX_REFUSED : Nat := 60

end Sys2Proof.Machine
end

