-- ==== Sys2Proof/Machine/Table.lean ====
section
/-! DEFINITION. Sparse tables: a list of (key, entry) in which an unlisted key has the default of its table. -/
namespace Sys2Proof.Machine

/-- The entry of key `k`, the default `d` where none is listed. -/
def tget {α : Type} (d : α) : Tbl α → Nat → α
  | [], _ => d
  | (j, v) :: t, k => if j = k then v else tget d t k

/-- Put (k, v) before the first larger key. -/
def tput {α : Type} (k : Nat) (v : α) : Tbl α → Tbl α
  | [] => [(k, v)]
  | (j, w) :: t => if j < k then (j, w) :: tput k v t else (k, v) :: (j, w) :: t

/-- The table without key `k`. -/
def tdel {α : Type} (k : Nat) : Tbl α → Tbl α
  | [] => []
  | (j, w) :: t => if j = k then tdel k t else (j, w) :: tdel k t

/-- Make `v` the entry of `k`; writing the default removes the key, so that equal tables are equal lists. -/
def tset {α : Type} [DecidableEq α] (d : α) (t : Tbl α) (k : Nat) (v : α) : Tbl α :=
  if v = d then tdel k t else tput k v (tdel k t)

/-- Strictly rising keys and no default listed: the canonical form. -/
def twf {α : Type} [DecidableEq α] (d : α) : Tbl α → Bool
  | [] => true
  | [(_, v)] => decide (v ≠ d)
  | (j, v) :: (k, w) :: t => decide (j < k) && decide (v ≠ d) && twf d ((k, w) :: t)

/-- Remove every key of [lo, lo + n). -/
def tclear {α : Type} (lo n : Nat) (t : Tbl α) : Tbl α := t.filter (fun e => !(decide (lo ≤ e.1) && decide (e.1 < lo + n)))

/-- Change every listed entry. -/
def tmap {α : Type} [DecidableEq α] (d : α) (f : Nat → α → α) : Tbl α → Tbl α
  | [] => []
  | (j, v) :: t => tset d (tmap d f t) j (f j v)

/-- The keys whose listed entry satisfies `p`, in rising order. -/
def tkeys {α : Type} (p : Nat → α → Bool) (t : Tbl α) : List Nat := (t.filter (fun e => p e.1 e.2)).map Prod.fst

end Sys2Proof.Machine
end

