-- ==== Sys2Proof/Machine/Ops.lean ====
section
/-! DEFINITION. The named operations over the state: the parts of each table, raises, counters, fabric memory and time. -/
namespace Sys2Proof.Machine

/-! ### Parts of the tables -/
def ring0 (r : Nat) : Ring := if r = 0 then { priv := 0 } else {}
def ring (s : State) (r : Nat) : Ring := tget (ring0 r) s.cr r
def setRing (s : State) (r : Nat) (x : Ring) : State := { s with cr := tset (ring0 r) s.cr r x }
def grp (s : State) (g : Nat) : IrqGroup := tget {} s.ic.group g
def setGrp (s : State) (g : Nat) (x : IrqGroup) : State := { s with ic := { s.ic with group := tset {} s.ic.group g x } }
def tgt (s : State) (t : Nat) : IrqTarget := tget {} s.ic.target t
def setTgt (s : State) (t : Nat) (x : IrqTarget) : State := { s with ic := { s.ic with target := tset {} s.ic.target t x } }
def flt (s : State) (n : Nat) : EvtFilter := tget {} s.ic.filter n
def setFlt (s : State) (n : Nat) (x : EvtFilter) : State := { s with ic := { s.ic with filter := tset {} s.ic.filter n x } }
def dom (s : State) (d : Nat) : Domain := tget {} s.pw.dom d
def setDom (s : State) (d : Nat) (x : Domain) : State := { s with pw := { s.pw with dom := tset {} s.pw.dom d x } }
def pdef (s : State) (p : Nat) : Option PortDef := tget none s.port.defs p
def setPdef (s : State) (p : Nat) (x : Option PortDef) : State := { s with port := { s.port with defs := tset none s.port.defs p x } }
def pset (s : State) (p : Nat) : PortSet := tget {} s.port.set p
def setPset (s : State) (p : Nat) (x : PortSet) : State := { s with port := { s.port with set := tset {} s.port.set p x } }
def line (s : State) (p : Nat) : Line := tget {} s.port.line p
def setLine (s : State) (p : Nat) (x : Line) : State := { s with port := { s.port with line := tset {} s.port.line p x } }
def strm (s : State) (n : Nat) : StreamEntry := tget {} s.str.tab n
def setStrm (s : State) (n : Nat) (x : StreamEntry) : State := { s with str := { s.str with tab := tset {} s.str.tab n x } }
def bobn (s : State) (b : Nat) : Bobbin := tget {} s.bob.tab b
def setBob (s : State) (b : Nat) (x : Bobbin) : State := { s with bob := { s.bob with tab := tset {} s.bob.tab b x } }
def skein (s : State) (k : Nat) : Skein := tget {} s.skn.tab k
def setSkein (s : State) (k : Nat) (x : Skein) : State := { s with skn := { s.skn with tab := tset {} s.skn.tab k x } }
def contr (s : State) (n : Nat) : Contract := tget {} s.ct.tab n
def setCt (s : State) (n : Nat) (x : Contract) : State := { s with ct := { s.ct with tab := tset {} s.ct.tab n x } }
def chan (s : State) (n : Nat) : Channel := tget {} s.ck.chan n
def setChan (s : State) (n : Nat) (x : Channel) : State := { s with ck := { s.ck with chan := tset {} s.ck.chan n x } }
def stn (s : State) (i : Nat) : StnEntry := tget {} s.stn.entry i
def setStn (s : State) (i : Nat) (x : StnEntry) : State := { s with stn := { s.stn with entry := tset {} s.stn.entry i x } }
def window (s : State) (w : Nat) : Window := tget {} s.bob.window w
def testOf (s : State) (d : Nat) : TestRun := tget {} s.tst.dom d
def setTest (s : State) (d : Nat) (x : TestRun) : State := { s with tst := { s.tst with dom := tset {} s.tst.dom d x } }
def iir (s : State) (n : Nat) : IirSlot := tget {} s.sq.iir n
def setIir (s : State) (n : Nat) (x : IirSlot) : State := { s with sq := { s.sq with iir := tset {} s.sq.iir n x } }
def isEnabled (s : State) (p : Nat) : Bool := s.port.enabled.toNat.testBit p
def setBitAt {w : Nat} (v : BitVec w) (i : Nat) (b : Bool) : BitVec w :=
  if b then v ||| BitVec.ofNat w (2 ^ i) else v &&& ~~~ BitVec.ofNat w (2 ^ i)
def clamp (lo hi x : Int) : Int := max lo (min hi x)

/-! ### Domains -/
def isOn (s : State) (d : Nat) : Bool := d == 63 || (dom s d).st == .on
def isFailed (s : State) (d : Nat) : Bool := (dom s d).st == .failed
def onNormal (s : State) (d : Nat) : Bool := (dom s d).st == .on && !(dom s d).onFio
/-- Domain `d` takes part in a frame's path: it is ON on its normal clock (R385), and takes new work (R372). -/
def usable (s : State) (d : Nat) : Bool := onNormal s d && (dom s d).phase == .none
/-- Number of the AO cycle of 40 ns that holds instant `t`, and whether now is its last nanosecond: every vote and event of the cycle
has come (log 82). -/
def aoCycle (t : Nat) : Nat := t / 40
def aoEnd (s : State) : Bool := (s.tm.now + 1) % 40 == 0
/-- Slice of a port (R8) and its counter store (R12). -/
def sliceOf (p : Nat) : Nat := p / 8
def csOf (k : Nat) : Nat := dCS (k / 2)
/-- The lane-group domains of a port of width `w` (R13). -/
def lgOf (p w : Nat) : List Nat := if w = 8 then [p / 4, p / 4 + 1] else [p / 4]
/-- The domains of R13 for port `p` of width `w`; a starter port leaves TU out (R487). -/
def portDomains (p w : Nat) (starterPort : Bool) : List Nat :=
  lgOf p w ++ [dMS (sliceOf p), dPC (sliceOf p)] ++ (if starterPort then [] else [dTU]) ++ [dHD, dSL, csOf (sliceOf p)]

/-! ### Raises (R352) -/
def t4Routed (g : Nat) (G : IrqGroup) : Bool := g == 59 || g == 62 || G.targets.toNat.testBit 4
/-- The target set as it reads: T4 of G59 and G62 is always set (R355). -/
def targetSet (g : Nat) (G : IrqGroup) : BitVec 5 := if g == 59 || g == 62 then G.targets ||| 0x10 else G.targets
/-- Set the pending bits of source (g, n), number the raise and keep it for R281. -/
def raise (s : State) (g n : Nat) : State :=
  let G := grp s g
  let b := BitVec.ofNat 32 (2 ^ n)
  { s with ic := { s.ic with
      group := tset {} s.ic.group g { G with pend := G.pend ||| b, t4 := if t4Routed g G then G.t4 ||| b else G.t4 }
      serial := s.ic.serial + 1
      lastRaise := tset 0 s.ic.lastRaise (32 * g + n) (s.ic.serial + 1)
      wakeHit := if G.wake && G.en.toNat.testBit n then some (match s.ic.wakeHit with | some h => min h g | none => g) else s.ic.wakeHit } }
def raiseIf (c : Bool) (s : State) (g n : Nat) : State := if c then raise s g n else s
/-- Raise of a "first" event: only when none of its kind was raised since the counters were last read (R126 and others). -/
def raiseFirst (s : State) (tag obj g n : Nat) : State :=
  if (tag, obj) ∈ s.ctr.first then s
  else raise { s with ctr := { s.ctr with first := (tag, obj) :: s.ctr.first } } g n
/-- A "first" event of slice `k`: its counters, of value `x`, are read as registers, which no row shows (R156, log 77). -/
def raiseFirstSlice (s : State) (tag k n x : Nat) : State :=
  if (tag, k) ∈ s.ctr.first then raiseIf (Config.readSince (4 * tag + k) x s.ic.serial) s (32 + k) n
  else raiseFirst s tag k (32 + k) n
/-- A read of the counters arms the "first" events of `tag` and `obj` again. -/
def rearm (s : State) (tag obj : Nat) : State :=
  { s with ctr := { s.ctr with first := s.ctr.first.filter (fun e => e != (tag, obj)) } }

/-! ### Counters -/
def bump (t : Tbl (BitVec 64)) (i n : Nat) : Tbl (BitVec 64) := tset 0 t i (tget 0 t i + BitVec.ofNat 64 n)
/-- Counter `i` of port `p`; the counter stores count while their domain is ON (R62). -/
def cntPort (s : State) (p i n : Nat) : State :=
  if isOn s (csOf (sliceOf p)) then { s with ctr := { s.ctr with port := bump s.ctr.port (96 * p + i) n } } else s
/-- `ns` nanoseconds on counter `i` of port `p`, which counts time in units of 8 ns (R62). -/
def cntTime (s : State) (p i ns : Nat) : State :=
  let k := 96 * p + i
  let t := tget 0 s.ctr.rest k + ns
  if isOn s (csOf (sliceOf p)) then { s with ctr := { s.ctr with port := bump s.ctr.port k (t / 8), rest := tset 0 s.ctr.rest k (t % 8) } } else s
def cntSlice (s : State) (k i n : Nat) : State :=
  if isOn s (csOf k) then { s with ctr := { s.ctr with slice := bump s.ctr.slice (13 * k + i) n } } else s
def cntCsi (s : State) (k i n : Nat) : State :=
  if isOn s (csOf k) then { s with ctr := { s.ctr with csi := bump s.ctr.csi (4 * k + i) n } } else s
def cntHist (s : State) (p bin : Nat) : State :=
  if isOn s (csOf (sliceOf p)) then { s with ctr := { s.ctr with hist := bump s.ctr.hist (32 * p + bin) 1 } } else s
/-- Counter `i` of the bank of bobbin `b`, which counts while HD is ON (R220). -/
def cntBank (s : State) (b i n : Nat) : State := if isOn s dHD = false then s else { s with ctr := { s.ctr with bank := bump s.ctr.bank (8 * (b / 32768) + i) n } }
def cntRule (s : State) (k i octets : Nat) : State :=
  if isOn s (csOf k) then
    { s with ctr := { s.ctr with rule := bump (bump s.ctr.rule (2 * (4096 * k + i)) 1) (2 * (4096 * k + i) + 1) octets } }
  else s
def cntStream (s : State) (n i k : Nat) : State := { s with ctr := { s.ctr with stream := bump s.ctr.stream (7 * n + i) k } }
def cntRed (s : State) (p i : Nat) : State := { s with ctr := { s.ctr with red := bump s.ctr.red (5 * p + i) 1 } }
def cntStn (s : State) (i n : Nat) : State := { s with ctr := { s.ctr with station := bump s.ctr.station i n } }

/-- Add `n` to the Ledger field at `off`. -/
def ldAdd (s : State) (off n : Nat) : State :=
  { s with ld := { s.ld with pend := { s.ld.pend with add := tset 0 s.ld.pend.add off (tget 0 s.ld.pend.add off + n) } } }

/-! ### Fabric memory that the block has written (logs 1 and 2) -/
/-- A byte of it: what an address reads as that the block has not written is 0. -/
def memGet (m : List Host.Cell) (a : Nat) : Byte := tget 0 m a
def memPut (m : List Host.Cell) (a : Nat) (b : Byte) : List Host.Cell := tset 0 m a b
/-- Write octets at rising addresses. -/
def memWrite : List Host.Cell → Nat → Octets → List Host.Cell
  | m, _, [] => m
  | m, a, b :: t => memWrite (memPut m a b) (a + 1) t
/-- A write answered with ERROR: each byte holds its old or its new value, free (R459). -/
def memWriteFree (draw : Nat) : List Host.Cell → Nat → Octets → List Host.Cell
  | m, _, [] => m
  | m, a, b :: t => memWriteFree draw (if Config.landed draw a then memPut m a b else m) (a + 1) t
/-- The register port answers every register: edge state LIVE, and start-up has reached step 5; until then it answers the identity registers
alone (R461, R474, R483; log 88). -/
def portOpen (s : State) : Bool := s.pw.edge == .live && s.pw.startUp == .done
/-- A write as the fabric acknowledges it. -/
def fabWrite (s : State) (a : Nat) (o : Octets) (error : Bool) : State :=
  if error then { s with mem := memWriteFree s.tm.free s.mem a o, tm := { s.tm with free := s.tm.free + 1 } }
  else { s with mem := memWrite s.mem a o }
/-- The canonical form of the memory. -/
abbrev Memory.wf (m : List Host.Cell) : Prop := twf (0 : Byte) m = true
/-- A fresh free value. -/
def freeWord (s : State) : BitVec 64 × State := (Config.freeWord s.tm.free, { s with tm := { s.tm with free := s.tm.free + 1 } })

/-! ### Time -/
/-- Time of the time unit, or of the starter counter during starter service (R486). -/
def nowT (s : State) : T96 :=
  if s.st0.running then nT96 s.st0.t else { sec := s.tu.sec, ns := s.tu.ns, frac := s.tu.sub / 2 ^ 32 }
/-- Quality code (R74 to R76, R486, R431, R439). -/
def nowQ (s : State) : Quality :=
  if s.st0.running then .starter
  else if !s.tu.stepped then .unset
  else match s.stk.quality with
    | some q => q
    | none => if s.tu.holdover then .holdover else .locked
/-- Time-unit time with the steps taken out (R234), in units of 2^-16 ns. -/
def accOf (s : State) (t : T96) : Int := (t96n t : Int) - s.tu.stepAcc

/-- TX_COMP and RX_COMP of R81, in units of 2^-16 ns. -/
def comp (m : LaneMode) (f : Fec) : Nat × Nat :=
  match m, f with
  | .l224, _ => (237568, 315392)
  | .l112, _ => (393216, 475136)
  | .l56, _ => (708608, 790528)
  | .l25, .none => (651264, 815104)
  | .l25, _ => (1302528, 1462272)
  | .l10, .none => (1626112, 2031616)
  | .l10, _ => (3252224, 3661824)
/-- P bit times of the lane mode, in units of 2^-16 ns (R80). -/
def bitTimes (m : LaneMode) (p : Nat) : Nat :=
  match m with
  | .l224 => p * 65536 * 2 / 425
  | .l112 => p * 65536 * 4 / 425
  | .l56 => p * 65536 * 8 / 425
  | .l25 => p * 65536 * 32 / 825
  | .l10 => p * 65536 * 16 / 165
/-- The time unit as a mark of now. -/
def markOf (s : State) : TimeMark :=
  { at_ := s.tm.now, base := ((s.tu.sec * 1000000000 + s.tu.ns) * 2 ^ 48 + s.tu.sub : Nat), rate := s.tu.rate, left := s.tu.slewLeft, mag := s.tu.slewMag, neg := s.tu.slewNeg
    run := onNormal s dTU, acc := s.tu.stepAcc }
/-- The course of the time changes here: its clock, its rate, a slew or a step. -/
def pushMark (s : State) : State := { s with tu := { s.tu with marks := markOf s :: s.tu.marks } }
/-- Time of the course at instant `t`, in units of 2^-16 ns: R69 run on from the mark, in one. -/
def markAt (m : TimeMark) (t : Nat) : Int :=
  let n := if m.run then t - m.at_ else 0
  let slew : Int := (min m.left (n * (m.mag * 65536)) : Nat)
  (m.base + n * (281474976710656 + m.rate * 65536) + (if m.neg then -slew else slew)) / 4294967296
/-- The block's time at instant `t`, in units of 2^-16 ns, and the sum of the steps made by then. -/
def timeAt (s : State) (t : Nat) : Int × Int :=
  if s.st0.running then ((s.st0.trimT : Int) + ((t : Int) - s.st0.trimAt) * 2 / 5 * 163840, s.tu.stepAcc)
  else match s.tu.marks.find? (fun m => decide (m.at_ ≤ t)) with
    | some m => (markAt m t, m.acc)
    | none => (0, s.tu.stepAcc)
/-- The bound of R79 on a shadow's error, in units of 2^-16 ns. -/
def shadowBound (m : LaneMode) : Int :=
  match m with
  | .l224 => 9830
  | .l112 | .l56 => 16384
  | .l25 => 32768
  | .l10 => 65536
/-- P of R80, the position of the bit in its 256-bit word. -/
def bitPos (x : LaneStamp) : Nat := x.p % 256
/-- Error of the shadow that the stamp takes. -/
def shadowErr (d : PortDef) (x : LaneStamp) : Int := clamp (-(shadowBound d.mode)) (shadowBound d.mode) x.err
/-- W of R80 for a point at time `t`: the shadow at the word's edge, as far from the point as the registers and the bit's place put it (R81),
so that the stamp carries the time in force at the point (R73). -/
def txW (d : PortDef) (x : LaneStamp) (t : Int) : Int := t - (comp d.mode d.fec).1 - bitTimes d.mode (bitPos x) + shadowErr d x
def rxW (d : PortDef) (x : LaneStamp) (t : Int) : Int := t + (comp d.mode d.fec).2 - bitTimes d.mode (bitPos x) + shadowErr d x
/-- Transmit and receive stamps of R80, in units of 2^-16 ns, for a point at time `t`. -/
def txTime (d : PortDef) (x : LaneStamp) (t : Int) : Int := txW d x t + (comp d.mode d.fec).1 + bitTimes d.mode (bitPos x)
def rxTime (d : PortDef) (x : LaneStamp) (t : Int) : Int := rxW d x t - (comp d.mode d.fec).2 + bitTimes d.mode (bitPos x)
/-- The stamp `t` of port `p` in direction `dir` (1 transmit), later than the one before it (R83). -/
def orderStamp (s : State) (p dir : Nat) (t : Int) : Int :=
  match tget none s.tu.lastStamp (2 * p + dir) with
  | some l => if t ≤ l then l + 1 else t
  | none => t
/-- A time-stamp point of port `p`: its stamp, and the state that holds the lane's shadow and the stamp (R78 to R83). -/
def stampPoint (s : State) (p : Nat) (tx : Bool) (x : LaneStamp) : T96 × State :=
  match pdef s p with
  | none => ({}, s)
  | some d =>
    let t := (timeAt s (s.tm.now - x.ago)).1
    let v := orderStamp s p (b2n tx) (if tx then txTime d x t else rxTime d x t)
    let lane := p + x.lane % d.width
    (nT96 v, { s with tu := { s.tu with lastStamp := tset none s.tu.lastStamp (2 * p + b2n tx) (some v)
                                        shadow := tset 0 s.tu.shadow (if tx then 32 + lane / 4 else lane) (shadowErr d x) } })

/-- MAC rate in Mb/s of a lane mode and width (R24); a plied port runs at 3,200,000 (R447). -/
def laneRate : LaneMode → Nat
  | .l224 => 200000
  | .l112 => 100000
  | .l56 => 50000
  | .l25 => 25000
  | .l10 => 10000
def rateOf (d : PortDef) (w : Nat) : Nat := if d.plied then 3200000 else laneRate d.mode * w
/-- The width the port runs at: the reduced one while it is shed (R59). -/
def curWidth (s : State) (p : Nat) (d : PortDef) : Nat := if (line s p).width = 0 then d.width else (line s p).width
def curRate (s : State) (p : Nat) : Nat := match pdef s p with | some d => rateOf d (curWidth s p d) | none => 1

/-! ### Indices (R191) -/
def bsize (B : Bobbin) : Nat := 2 ^ B.sizeLog2
def occOf (pi ci size : Nat) : Nat := (pi + 2 * size - ci) % (2 * size)
def bocc (B : Bobbin) : Nat :=
  if B.kind == .completion then occOf B.blockIdx B.hostIdx (bsize B) else occOf B.hostIdx B.blockIdx (bsize B)
/-- The check of R192 for a producer's index. -/
def prodOk (v pi ci size : Nat) : Bool :=
  decide (v < 2 * size) && decide ((v + 2 * size - pi) % (2 * size) ≤ size - occOf pi ci size)
/-- The check of R192 for a consumer's index. -/
def consOk (v pi ci size : Nat) : Bool :=
  decide (v < 2 * size) && decide ((v + 2 * size - ci) % (2 * size) ≤ occOf pi ci size)
def ringSize (R : Ring) : Nat := 2 ^ R.sizeLog2.toNat
def cmdOcc (R : Ring) : Nat := occOf R.hostIdx.toNat R.blockIdx.toNat (ringSize R)
def cplOcc (R : Ring) : Nat := occOf R.cplBlockIdx.toNat R.cplHostIdx.toNat (ringSize R)

/-! ### Data windows (R189) -/
def inWindow (s : State) (w addr len : Nat) : Bool :=
  let W := window s w
  decide (W.base ≤ addr) && decide (addr + len ≤ W.base + W.size) && decide (0 < W.size)

/-! ### Tallies (R417, R418) -/
/-- Rows used of a tally: those burnt, and every row attempted, which a row of value 0 would not show (R418). -/
def burnt (s : State) (t : Nat) : Nat :=
  ((List.range 8).filter (fun r => tget 0 s.ld.fuse (8 * t + r) != 0 || (tget 0 s.ld.tried t).toNat.testBit r)).length
def rowOk (v : BitVec 64) : Bool := v != 0 && crc8 (le 7 v.toNat) == v.toNat / 2 ^ 56
/-- Value in force: that of the highest burnt row whose check is correct. -/
def tally (s : State) (t : Nat) : Nat :=
  (List.range 8).foldl (fun a r => let v := tget 0 s.ld.fuse (8 * t + r); if rowOk v then v.toNat % 2 ^ 56 else a) 0
def instanceId (s : State) : Nat := tally s 10 % 32

/-! ### Hold-off (R357) -/
def holdK (G : IrqGroup) : Nat := ceilDiv (8 * G.holdoff.toNat) 5
/-- The hold-off counter, in AO cycles of 40 ns. -/
def holdCount (s : State) (G : IrqGroup) : Nat := match G.lastOpen with | none => 131071 | some t => min 131071 ((s.tm.now - t) / 40)
/-- The gate as step 4 of the AO cycle before this one left it (R359): one that opened in this cycle still reads closed. -/
def gateSeen (s : State) (G : IrqGroup) : Bool :=
  G.gateOpen && (match G.lastOpen with | some t => decide (aoCycle t < aoCycle s.tm.now) | none => true)
/-- An open gate without a pending enabled source closes. -/
def closeGate (G : IrqGroup) : IrqGroup := if G.gateOpen && (G.pend &&& G.en == 0) then { G with gateOpen := false } else G
def closeGates (s : State) : State := { s with ic := { s.ic with group := tmap {} (fun _ G => closeGate G) s.ic.group } }

end Sys2Proof.Machine
end

