-- ==== Sys2Proof/Machine/Hash.lean ====
section
/-! DEFINITION. Station keys: the hash (R161, R162, R180), the lookup (R163), insertion and displacement (R171, R172). -/
namespace Sys2Proof.Machine

/-- g(S, Q): bits [15:0] of the CRC-32C over the nine octets of S·2^44 + Q. -/
def gHash (s q : Nat) : Nat := crc32c 0xFFFFFFFF (be 9 (s * 2 ^ 44 + q)) % 65536
def quot (fid mac : Nat) : Nat := fid * 2 ^ 32 + mac / 65536
/-- The candidates of a key in the phase and at the boundary given (R180), each with whether its seed is new. -/
def candsAt (t : Station) (phase ptr fid mac : Nat) : (Nat × Bool) × (Nat × Bool) :=
  let q := quot fid mac
  let lo := mac % 65536
  let c1 := Nat.xor lo (gHash t.s1 q)
  let c2 := Nat.xor lo (gHash t.s2 q)
  let n2 := (phase == 1 && decide (c2 < ptr)) || phase == 2
  let n1 := phase == 2 && decide (c1 < ptr)
  ((if n1 then Nat.xor lo (gHash t.s1n q) else c1, n1), (if n2 then Nat.xor lo (gHash t.s2n q) else c2, n2))
def cands (s : State) (fid mac : Nat) : (Nat × Bool) × (Nat × Bool) := candsAt s.stn s.stn.phase s.stn.ptr fid mac
/-- Bank of a bucket (R15). -/
def bankOf (u : Nat) : Nat := u / 4096
/-- FID and address of an entry in bucket `u` (R162). -/
def stnKey (s : State) (u : Nat) (e : StnEntry) : Nat × Nat :=
  let new := e.gen == s.stn.tg
  let seed := if e.choice then (if new then s.stn.s2n else s.stn.s2) else (if new then s.stn.s1n else s.stn.s1)
  (e.q / 2 ^ 32, e.q % 2 ^ 32 * 65536 + Nat.xor u (gHash seed e.q))
/-- The lowest slot of bucket `u` that holds the key; nothing is found in a bank that `up` does not let read (R371). -/
def findIn (s : State) (up : Nat → Bool) (u fid mac : Nat) : Option Nat :=
  if up (dST (bankOf u)) then (List.range 8).find? (fun i => let e := stn s (8 * u + i); e.valid && stnKey s u e == (fid, mac)) else none
/-- The lookup of R163, as 8·bucket + slot. -/
def findKey (s : State) (up : Nat → Bool) (fid mac : Nat) : Option Nat :=
  let c := cands s fid mac
  match findIn s up c.1.1 fid mac with
  | some i => some (8 * c.1.1 + i)
  | none => (findIn s up c.2.1 fid mac).map (fun i => 8 * c.2.1 + i)
/-- The lookup of an instruction or of the learn port, in the banks that are ON. -/
def stnFind (s : State) (fid mac : Nat) : Option Nat := findKey s (isOn s) fid mac
/-- The lookup of a frame, in the banks that are ON on their normal clock (R385). -/
def stnSeen (s : State) (fid mac : Nat) : Option Nat := findKey s (usable s) fid mac
/-- The lowest free slot of bucket `u`; a FAILED bank has none (R389). -/
def freeSlot (s : State) (u : Nat) : Option Nat :=
  if isFailed s (dST (bankOf u)) then none else (List.range 8).find? (fun i => !(stn s (8 * u + i)).valid)
/-- The other candidate of the entry in slot `v` of bucket `b`: the bucket, its seed's being new, and the choice it stands for. -/
def otherCand (s : State) (b v : Nat) : Nat × Bool × Bool :=
  let e := stn s (8 * b + v)
  let k := stnKey s b e
  let c := cands s k.1 k.2
  if e.choice then (c.1.1, c.1.2, false) else (c.2.1, c.2.2, true)
/-- The displacement path of R171: (bucket, slot) of each move, and the bucket with the free slot. -/
def findPath (s : State) (rot : Nat) : Nat → Nat → List (Nat × Nat) → Option (List (Nat × Nat) × Nat)
  | 0, _, _ => none
  | n + 1, b, path =>
    match ((List.range 8).map (fun i => (rot + i) % 8)).find? (fun v => (stn s (8 * b + v)).valid && (otherCand s b v).1 != b) with
    | none => none
    | some v =>
      let path := path ++ [(b, v)]
      let b := (otherCand s b v).1
      if (freeSlot s b).isSome then some (path, b) else findPath s rot n b path
/-- The bucket in which an insertion takes a free slot, none where it fails (R171, R173). -/
def insertBucket (s : State) (fid mac : Nat) : Option Nat :=
  let c := cands s fid mac
  if (freeSlot s c.1.1).isSome then some c.1.1
  else if (freeSlot s c.2.1).isSome then some c.2.1
  else (findPath s s.stn.rotor 4 c.1.1 []).map Prod.snd
/-- A bank whose entries stand but cannot be read yet: RETAINED, or waking to its check. -/
def bankHeld (s : State) (d : Nat) : Bool := (dom s d).st == .retained || ((dom s d).st == .waking && (dom s d).checkDue)
/-- The bank that a write for the key needs: a candidate bank whose entries cannot be read yet, that of the key's entry, or that of the slot
an insertion takes (R169, R371). -/
def keyBank (s : State) (fid mac : Nat) : Option Nat :=
  let c := cands s fid mac
  match [c.1.1, c.2.1].find? (fun u => bankHeld s (dST (bankOf u))) with
  | some u => some (bankOf u)
  | none =>
    match stnFind s fid mac with
    | some i => some (bankOf (i / 8))
    | none => (insertBucket s fid mac).map bankOf
/-- GEN of an entry placed under a seed (R162, R180). -/
def genFor (s : State) (new : Bool) : Bool := if s.stn.phase = 0 ∨ new then s.stn.tg else !s.stn.tg
/-- Write a path from its far end: each entry moves to its other candidate (R172). -/
def movePath (s : State) : List (Nat × Nat) → State
  | [] => s
  | (b, v) :: t =>
    let s := movePath s t
    let (u, new, ch) := otherCand s b v
    match freeSlot s u with
    | some i => setStn (setStn s (8 * u + i) { stn s (8 * b + v) with choice := ch, gen := genFor s new }) (8 * b + v) {}
    | none => s
/-- Put a new entry for the key in slot `i` of the bucket of choice `ch`. -/
def putKey (s : State) (fid mac : Nat) (e : StnEntry) (ch : Bool) (u i : Nat) (new : Bool) : State :=
  setStn s (8 * u + i) { e with valid := true, choice := ch, gen := genFor s new, q := quot fid mac }
/-- Insertion (R171): the state, and the entry's place with the moves made, or none (R173). Every search advances the rotor. -/
def insertKey (s : State) (fid mac : Nat) (e : StnEntry) : State × Option (Nat × Nat) :=
  let c := cands s fid mac
  match freeSlot s c.1.1 with
  | some i => (putKey s fid mac e false c.1.1 i c.1.2, some (8 * c.1.1 + i, 0))
  | none =>
    match freeSlot s c.2.1 with
    | some i => (putKey s fid mac e true c.2.1 i c.2.2, some (8 * c.2.1 + i, 0))
    | none =>
      let t := { s with stn := { s.stn with rotor := (s.stn.rotor + 1) % 8 } }
      match findPath s s.stn.rotor 4 c.1.1 [] with
      | some (path, _) =>
        let t := cntStn (movePath t path) 6 path.length
        match freeSlot t c.1.1 with
        | some i => (putKey t fid mac e false c.1.1 i c.1.2, some (8 * c.1.1 + i, path.length))
        | none => (t, none)
      | none => (t, none)

end Sys2Proof.Machine
end

