-- ==== Sys2Proof/Machine/Votes.lean ====
section
/-! DEFINITION. Votes (R369, R370, R380, R490), what they make the domains do, and what a domain loses with its power (R368). -/
namespace Sys2Proof.Machine

/-! ### Transient votes (R292, log 12) -/
/-- The domains that hold what a `READ` of an object returns (R12, R298), beside SQ and AON. -/
def readNeeds (kind n sub : Nat) : List Nat :=
  match kind with
  | 0x00 => if sub = 0x10 then [dSL] else []
  | 0x01 => if sub = 0x40 then [dMS (sliceOf n)] else []
  | 0x03 => [dBC (n / 32768)]
  | 0x04 | 0x05 | 0x06 | 0x07 | 0x0A => [dSL]
  | 0x08 => [dPC (n / 64)]
  | 0x11 => if sub = 0 then [dTU] else []
  | _ => []
/-- The domains whose state an instruction reads or writes, beside SQ and AON. -/
def opNeeds (s : State) (op : Nat) (c : Cmd) : List Nat :=
  let n := objNum c
  match op with
  | 0x02 =>
    if fld c 8 0 8 = 1 then (if s.st0.running then [] else [dTU])
    else if fld c 8 0 8 = 2 ∧ fbit c 11 0 = false then [dBC (fld c 16 0 18 / 32768), dHD]
    else []
  | 0x04 => dHD :: readNeeds (objKind c) n c.sub.toNat
  | 0x13 | 0x14 | 0x10 => [dSL]
  | 0x15 => [dLG (n / 4)]
  | 0x20 | 0x21 | 0x23 => [dBC (n / 32768), dHD, dSL]
  | 0x22 => if objKind c = 3 then [dBC (n / 32768), dHD, dSL] else []
  | 0x24 | 0x30 | 0x31 | 0x32 | 0x33 | 0x34 => [dSL]
  | 0x25 => if c.sub = 1 then [dSL, dHD] else [dSL]
  | 0x40 => [dPC (n / 64), dHD]
  | 0x41 | 0x43 => [dPC (n / 4096), dHD]
  | 0x42 => [dPC (n / 4096), csOf (n / 4096)]
  | 0x50 => dSL :: (keyBank s (fld c 8 0 12) (fmac c 10).toNat).toList.map dST
  | 0x51 | 0x52 =>
    let k := cands s (fld c 8 0 12) (fmac c 10).toNat
    dSL :: ([k.1.1, k.2.1].map (fun u => dST (bankOf u))).filter (bankHeld s)
  | 0x53 => dSL :: ((List.range 16).map dST).filter (bankHeld s)
  | 0x56 => [dSL]
  | 0x54 => dSL :: (List.range 16).map dST
  | 0x55 => if objKind c = 1 then [] else [dSL]
  | 0x60 | 0x61 | 0x62 | 0x63 | 0xF1 => [dTU]
  | 0x81 => [dCK, dHD]
  | 0x90 => [dLD, dHD]
  | 0x91 | 0x92 => [dLD]
  | 0xA0 | 0xA1 | 0xA2 | 0xA3 | 0x16 => [dSL]
  | 0xB0 => if fld c 8 0 8 = 0 then [dLD] else if fld c 8 0 8 = 1 then [dCK] else []
  | _ => []

/-! ### Votes -/
def suspended (s : State) : Bool := s.pw.sleep == .entry || s.pw.sleep == .asleep
def cnt (b : Bool) : Nat := b2n b
/-- Lanes a port needs powered: all eight again from the agreement to grow on (R58, R61). -/
def poweredWidth (s : State) (p : Nat) (d : PortDef) : Nat :=
  let L := line s p
  if (L.shed.st == .agreed || L.shed.st == .switching) && L.shed.target == 8 then 8 else curWidth s p d
/-- The domains an enabled port holds votes on (R13, R259, R487). -/
def portVoteSet (s : State) (p : Nat) : List Nat :=
  match pdef s p with
  | none => []
  | some d => dPS (2 * sliceOf p) :: portDomains p (poweredWidth s p d) (s.port.starterPort.toNat.testBit p)
def portVotes (s : State) (d : Nat) : Nat :=
  ((List.range 32).filter (fun p => isEnabled s p && (portVoteSet s p).contains d)).length
/-- A listening port of R381. -/
def listening (s : State) (p : Nat) : Bool :=
  (s.pw.sleep != .awake) && (pdef s p).isSome && !isEnabled s p && (pset s p).wake.en && s.pw.frameMask.toNat.testBit p
def listenVotes (s : State) (d : Nat) : Nat :=
  if s.pw.sleep == .entry || s.pw.sleep == .asleep then
    ((List.range 32).filter (fun p => listening s p &&
      (match pdef s p with | some x => (lgOf p x.width ++ [dMS (sliceOf p)]).contains d | none => false))).length
  else 0
def bobVotes (s : State) (d : Nat) : Nat :=
  if suspended s && s.pw.retainNow.toNat.testBit (16 + (d - 32)) then 0
  else (s.bob.tab.filter (fun e => e.2.st != .closed && decide (dBC (e.1 / 32768) = d))).length
def ctVotes (s : State) (d : Nat) : Nat :=
  if suspended s then 0
  else (s.ct.tab.filter (fun e => e.2.st != .free &&
    (let k := sliceOf e.2.img.port
     (decide (d = dPS (2 * k)) && decide (0 < e.2.draw0)) || (decide (d = dPS (2 * k + 1)) && decide (0 < e.2.draw1))))).length
/-- A template of slice k is valid, or a rule of either bank has VALID set (R505). -/
def pcHolds (s : State) (k : Nat) : Bool :=
  s.pc.tmpl.any (fun e => decide (e.1 / 64 = k) && e.2.toNat.testBit 408) ||
  s.pc.rule.any (fun e => decide (e.1 / 8192 = k) && e.2.action.toNat.testBit 0)
def stHolds (s : State) (m : Nat) : Bool := s.stn.entry.any (fun e => decide (e.1 / 32768 = m) && e.2.valid)
def stOwn (s : State) (m : Nat) : Nat :=
  if suspended s && s.pw.releaseNow.toNat.testBit m then 0 else cnt (stHolds s m)
/-- The learn port's vote on the bank of the write it has waiting. -/
def learnVote (s : State) (m : Nat) : Nat :=
  match s.stn.fifo with
  | [] => 0
  | r :: _ => cnt (keyBank s r.fid r.mac == some m)
def bootSet : List Nat := [dSQ, dCK, dHD, dSL, dLD]
/-- The start-up's own votes: on SQ until a reset, on the rest of the boot set until the first sleep (R384, R483, log 22). -/
def bootVote (s : State) (d : Nat) : Nat :=
  cnt (s.pw.startUp != .inReset && !suspended s && (d == dSQ || (s.pw.bootHeld && bootSet.contains d)))
def ringVote (s : State) (r d : Nat) : Bool := (tget 0 s.pw.vote d).toNat.testBit r
/-- A check of the block's own, or a known-answer test, runs and votes as any running channel does (R369, R404). The checks of a sleep
entry keep no domain of the sleep set from its power-down (R379, R380, and the example of R387). -/
def ckExtra (s : State) : Bool := s.ck.extra &&& ~~~ (if suspended s then (4611686018427387904 : BitVec 64) else 0) != 0
/-- The saves of a sleep entry wait for channel 62, whose domain CK is not ON (R369, R376). -/
def ckSave (s : State) : Bool := s.pw.sleep == .entry && s.ck.extra.toNat.testBit 62 && !isOn s dCK
/-- Votes that keep data in place (R490). -/
def dataVotes (s : State) (d : Nat) : Nat :=
  portVotes s d + listenVotes s d
  + (if 32 ≤ d ∧ d < 40 then bobVotes s d else 0)
  + (if 40 ≤ d ∧ d < 48 then ctVotes s d else 0)
  + (if 12 ≤ d ∧ d < 16 then (if suspended s then 0 else cnt (pcHolds s (d - 12))) else 0)
  + (if 16 ≤ d ∧ d < 32 then stOwn s (d - 16) + learnVote s (d - 16) else 0)
  + (if d = dSQ then (if suspended s then 0 else cnt (decide (∃ r ∈ List.range 8, (ring s r).enable = true) || !s.sq.journal.isEmpty)) else 0)
  + (if d = dCK ∨ d = dHD then (s.ck.chan.filter (fun e => e.2.run.isSome)).length + cnt (ckExtra s) else 0)
  + (if d = dCK then cnt (ckSave s) else 0)
  + (if d = dLD then cnt (s.ld.flush.isSome || !s.ld.due.isEmpty) else 0)
  + ((List.range 8).filter (fun r => ringVote s r d)).length
  + bootVote s d
def inSleepSet (s : State) (d : Nat) : Bool := suspended s && s.pw.sleepSet.contains d
/-- A domain that is ON holds its dependency votes, and so does one that a wake requests: all are requested at once (R369, R384). -/
def depFrom (s : State) (d : Nat) : Nat := cnt ((isOn s d && !inSleepSet s d) || (s.pw.sleep == .waking && s.pw.wakeSet.contains d))
def depVotes (s : State) (d : Nat) : Nat :=
  if d = dHD then depFrom s dSQ + ((List.range 8).filter (fun b => depFrom s (dBC b) = 1)).length
  else if d = dSL then depFrom s dSQ + ((List.range 16).filter (fun m => depFrom s (dST m) = 1)).length
  else 0
def transVotes (s : State) (d : Nat) : Nat :=
  (s.sq.journal.filter (fun j => !j.task && (opNeeds s j.opcode j.cmd).contains d)).length
  + ((List.range 8).filter (fun r => match (ring s r).wait with | some w => (opNeeds s 0x02 w.cmd).contains d | none => false)).length
def testVotes (s : State) (d : Nat) : Nat := cnt ((testOf s d).st == .running)
/-- The count of R370. -/
def votes (s : State) (d : Nat) : Nat := dataVotes s d + depVotes s d + transVotes s d + testVotes s d

/-! ### What a domain loses (R368) -/
def clearSlicePorts (s : State) (k : Nat) (f : Line → Line) : State :=
  { s with port := { s.port with line := tmap {} (fun p l => if p / 8 = k then f l else l) s.port.line } }
def endRun (ch : Channel) : Channel := if ch.run.isSome then { ch with run := none, outcome := 0 } else ch
/-- Runs end without an event and without a result (R403); banks that wait for channel 62 still do. -/
def endRuns (s : State) : State := { s with ck := { s.ck with chan := tmap {} (fun _ ch => endRun ch) s.ck.chan, extra := s.ck.extra &&& 4611686018427387904 } }
/-- What SQ holds of a ring; PRIV, SIZE_LOG2, bases and grant are in AON (R368, R477). -/
def ringCold (R : Ring) : Ring :=
  { priv := R.priv, sizeLog2 := R.sizeLog2, base := R.base, cplBase := R.cplBase, grant := R.grant }
def clearRings (s : State) : State :=
  { s with cr := (List.range 8).foldl (fun t r => tset (ring0 r) t r (ringCold (tget (ring0 r) t r))) s.cr
           sq := { s.sq with journal := [], owner := none, resetBy := none, lastStep := false, lastRing := 7, admRun := none } }
def csSlices (d : Nat) : Nat → Bool := fun k => k / 2 == d - 54
/-- Some lane of port `p` lies in LG domain `d`. -/
def lanesIn (s : State) (p d : Nat) : Bool := match pdef s p with | some x => (lgOf p x.width).contains d | none => p / 4 == d
/-- The units of domain `d` take their power-up values. What the spec leaves open (R12, R266, R367): frames without a contract that are staged
in a PS bank whose last vote ends stay whole, and are sent when their port is up again (log 28). -/
def clearDomain (s : State) (d : Nat) : State :=
  if d < 8 then
    { s with port := { s.port with line := tmap {} (fun p l => if lanesIn s p d then { l with locked := false, training := .idle, laneDone := [] } else l) s.port.line } }
  else if d < 12 then
    let s := clearSlicePorts s (d - 8) (fun l => { ({} : Line) with locked := l.locked, lockAt := l.lockAt, training := l.training, trainFailAt := l.trainFailAt, laneDone := l.laneDone, width := l.width })
    { s with rx := { s.rx with csi := tset [] s.rx.csi (d - 8) [] } }
  else if d < 16 then
    let k := d - 12
    { s with pc := { s.pc with tmpl := tclear (64 * k) 64 s.pc.tmpl, rule := tclear (8192 * k) 8192 s.pc.rule
                               active := setBitAt s.pc.active k false, commit := tset none s.pc.commit k none
                               recirc := tset [] s.pc.recirc k [] } }
  else if d < 32 then { s with stn := { s.stn with entry := tclear (32768 * (d - 16)) 32768 s.stn.entry } }
  else if d < 40 then
    let b := d - 32
    { s with bob := { s.bob with tab := tclear (32768 * b) 32768 s.bob.tab, notify := tclear (32768 * b) 32768 s.bob.notify
                                 summary := tclear (512 * b) 512 s.bob.summary
                                 save := tclear (32768 * b) 32768 s.bob.save } }
  else if d < 48 then s
  else if d = dSQ then
    let s := clearRings (endRuns s)
    { s with ck := { s.ck with chan := [] }, sq := { s.sq with released := false } }
  else if d = dCK then endRuns s
  else if d = dTU then { s with tu := {} }
  else if d = dSL then
    { s with ct := {}, skn := {}, str := {}, spr := {}, stk := {}
             stn := { entry := s.stn.entry, s1 := s.stn.s1, s2 := s.stn.s2, s1n := s.stn.s1n, s2n := s.stn.s2n, tg := s.stn.tg, phase := s.stn.phase, ptr := s.stn.ptr, kept := s.stn.kept }
             ctr := { s.ctr with stream := [], red := [], station := [] } }
  else if d = dHD then { s with ctr := { s.ctr with bank := [] } }
  else if d = 54 ∨ d = 55 then
    let p := csSlices d
    { s with ctr := { s.ctr with
        port := s.ctr.port.filter (fun e => !p (e.1 / 96 / 8)), rest := s.ctr.rest.filter (fun e => !p (e.1 / 96 / 8)), hist := s.ctr.hist.filter (fun e => !p (e.1 / 32 / 8))
        slice := s.ctr.slice.filter (fun e => !p (e.1 / 13)), csi := s.ctr.csi.filter (fun e => !p (e.1 / 4))
        rule := s.ctr.rule.filter (fun e => !p (e.1 / 8192)) } }
  else s

/-! ### Requests (R370, R372 to R374, R388) -/
/-- The block may request domain `d`: in edge state LIVE, or LD for the count of R337 (R474). -/
def powered (s : State) (d : Nat) : Bool := s.pw.startUp != .inReset && (s.pw.edge == .live || (s.pw.edge == .held && d == dLD))
/-- What the count of a domain makes it do at once: request, begin to quiesce, or abort the power-down. -/
def domStep (now : Nat) (live wanted : Bool) (D : Domain) : Domain :=
  match D.st with
  | .off =>
    if live && wanted && D.phase == .none && !D.retrying && !D.ack then
      { D with st := .waking, req := true, ack := true, ret := false, reqAt := now, tries := 0, checkDue := false }
    else D
  | .retained =>
    if live && wanted && D.phase == .none && !D.retrying && !D.ack then
      { D with st := .waking, req := true, ack := true, ret := false, reqAt := now, tries := 0, checkDue := true }
    else D
  | .on =>
    match D.phase with
    | .none => if wanted then D else { D with phase := .quiesce, since := now }
    | .quiesce | .save => if wanted then { D with phase := .none } else D
    | _ => D
  | .waking => D
  | .failed => D
/-- One pass of R370 over the switched domains. A vote on a domain of the sleep set takes it out of the set (R374). -/
def evalDomain (s : State) (d : Nat) : State :=
  let wanted := decide (0 < votes s d)
  let s := if wanted && s.pw.sleep == .entry && s.pw.sleepSet.contains d then { s with pw := { s.pw with sleepSet := s.pw.sleepSet.filter (· != d) } } else s
  setDom s d (domStep s.tm.now (powered s d) wanted (dom s d))
/-- A deferred destructive test runs when the last data vote on its domain ends (R491). -/
def evalTest (s : State) (d : Nat) : State :=
  let t := testOf s d
  setTest s d (if t.st == .deferred && dataVotes s d == 0 && s.pw.sleep == .awake && s.pw.edge == .live then { t with st := .running } else t)
/-- No contract names the port, and no bobbin that is not CLOSED is bound to a skein of it (R332). -/
def loopFree (s : State) (p : Nat) : Bool :=
  !s.ct.tab.any (fun e => e.2.st != .free && e.2.img.port == p) &&
  !s.bob.tab.any (fun e => e.2.st != .closed && e.2.kind == .transmit && (skein s e.2.skein).valid && (skein s e.2.skein).port == p)
/-- Port `p` takes loopback mode `m`. -/
def setLoop (s : State) (p m : Nat) : State :=
  setLine { s with tst := { s.tst with loop := tset 0 s.tst.loop p m } } p { line s p with echo := [] }
/-- A deferred loopback takes effect once its port is free, and reports as a deferred test does (R331, R332). -/
def evalLoop (s : State) (e : Nat × Option Nat) : State :=
  match e.2 with
  | some m =>
    if loopFree s e.1 then
      let s := setLoop s e.1 m
      raise { s with tst := { s.tst with loopDefer := tset none s.tst.loopDefer e.1 none }
                     ld := { s.ld with testRec := tset 0 s.ld.testRec (64 + e.1) 0 } } 58 2
    else s
  | none => s
/-! ### T4 claims (R340, R355) -/
/-- The T4 source of highest priority, lowest id among equals, of those the last AO cycle left pending. -/
def topT4 (s : State) : Option Nat :=
  ((s.ic.group.map Prod.fst).foldl (fun (a : Option (Nat × Nat)) g =>
    (List.range 32).foldl (fun a n =>
      if (grp s g).t4Seen.toNat.testBit n then
        match a with
        | some (src, p) => if p < (grp s g).prio.toNat then some (32 * g + n, (grp s g).prio.toNat) else some (src, p)
        | none => some (32 * g + n, (grp s g).prio.toNat)
      else a) a) none).map Prod.fst
/-- At a boundary the Spindle makes a T4 claim when one is due, and none while one waits for its clear. -/
def claimT4 (s : State) : State :=
  if s.sq.released && isOn s dSQ && s.sq.t4Claim.isNone then { s with sq := { s.sq with t4Claim := topT4 s } } else s
/-! ### Wake events (R364, R382, R383, R384) -/
/-- Domains that a wake requests, and waits for: those with a vote that are not ON, and those on which these then depend (R384). -/
def wakeTargets (s : State) : List Nat :=
  let l := (List.range 56).filter (fun d => decide (0 < votes s d) && !isOn s d)
  let any := fun (a n : Nat) => l.any (fun d => decide (a ≤ d) && decide (d < a + n))
  (List.range 56).filter (fun d => !isOn s d && !isFailed s d && (l.contains d ||
    (d == dHD && (l.contains dSQ || any 32 8)) || (d == dSL && (l.contains dSQ || any 16 16))))
def clearSleepVotes (s : State) : State :=
  (List.range 4).foldl (fun s t => setTgt s t { tgt s t with sleepGranted := false, sleepHeld := false }) s
/-- No power-down of the sleep set has begun (R374). -/
def stopDowns (s : State) : State :=
  s.pw.sleepSet.foldl (fun s d => setDom s d (let D := dom s d; if D.phase == .quiesce || D.phase == .save then { D with phase := .none } else D)) s
/-- A bank waits in retention, or for its check. -/
def anyRetained (s : State) : Bool := s.pw.dom.any (fun e => bankHeld s e.1)
/-- The record of the last wake source; of several events in one AO cycle it holds the lowest kind, then the lowest number (R382). -/
def recordWake (s : State) (kind num : Nat) : State :=
  let W := s.pw.lastWake
  let same := match s.pw.wakeAt with | some t => aoCycle t == aoCycle s.tm.now | none => false
  let lower := decide (kind < W.kind) || (kind == W.kind && decide (num < W.num))
  if same && !lower then s else { s with pw := { s.pw with lastWake := { kind := kind, num := num }, wakeAt := some s.tm.now } }
/-- A wake event of a kind and number: it aborts an entry before the isolation instant, or ends the sleep after it (R383, R384). One that
follows another in its AO cycle only takes part in the record. -/
def wakeEvent (s : State) (kind num : Nat) : State :=
  match s.pw.sleep with
  | .entry =>
    let s := recordWake (stopDowns s) kind num
    let s := clearSleepVotes { s with pw := { s.pw with sleep := .awake, sleepSet := [], slotValid := 0 }
                                      ck := { s.ck with extra := setBitAt s.ck.extra 62 false } }
    raise s 59 1
  | .asleep =>
    let s := recordWake s kind num
    let s := clearSleepVotes { s with pw := { s.pw with sleep := .waking, bootHeld := false }
                                      ck := { s.ck with extra := setBitAt s.ck.extra 62 (anyRetained s) } }
    { s with pw := { s.pw with wakeSet := wakeTargets s, sleepSet := [] } }
  | _ => if s.pw.wakeAt.any (fun t => aoCycle t == aoCycle s.tm.now) then recordWake s kind num else s
/-- A wake-capable raise of the command acts as a wake event of kind 5 (R364). -/
def settleWake (s : State) : State :=
  match s.ic.wakeHit with
  | some g => let s := wakeEvent s 5 g; { s with ic := { s.ic with wakeHit := none } }
  | none => s
end Sys2Proof.Machine
end

