-- ==== Sys2Proof/Machine/Conditions.lean ====
section
/-! DEFINITION. What entries of the step queue wait for (R339, R346), the choice of the Spindle's next unit of work (R280, R283, R334,
R341), and what follows a command at once. -/
namespace Sys2Proof.Machine

/-! ### The step queue (R339, R346) -/
/-- A domain that an instruction needs is FAILED. -/
def needsFailed (s : State) (ds : List Nat) : Bool := ds.any (isFailed s)
/-- They are all ON, and none is under a destructive test, which lets its domain take no work (R292, R491). -/
def needsOn (s : State) (ds : List Nat) : Bool := ds.all (fun d => isOn s d && (testOf s d).st != .running)
/-- No accepted frame of the port is in flight. -/
def portDrained (s : State) (p : Nat) : Bool := !s.tx.frames.any (fun f => f.port == p && f.origin == .accepted)
/-- Frames of the slice's old epoch are in flight (R151). -/
def oldEpoch (s : State) (k : Nat) : Bool := (tget [] s.pc.recirc k).any (fun f => f.epoch != b2n (s.pc.active.toNat.testBit k))
/-- What a `STACK.JOIN` or a cross-instance admission waits for has come. -/
def stackReady (s : State) (j : JEntry) : Bool :=
  let told := match tget none s.stk.reply j.ring with | some (.waiting _ _) => false | some _ => true | none => false
  if j.opcode = 0xA1 then
    s.stk.st != .joining || told || (j.stage == 1 && s.stk.joinHeard) || (j.stage == 2 && s.stk.joinAck.isSome) || (j.stage == 3 && s.stk.joinStepped)
  else told || (tget none s.stk.reply j.ring).isNone
/-- An admission test runs, or waits for the Distaff: one test runs at a time (R241, R293, R437). -/
def admBusy (s : State) : Bool :=
  s.sq.admRun.isSome || s.sq.journal.any (fun e => e.opcode != 0xA1 && (match e.cond with | .stackReply _ => true | _ => false))
/-- Runs of channels 0 to 61 make progress: CK is ON, and channel 62 does not take the whole of the engine (R399, R406). -/
def chansRun (s : State) : Bool := isOn s dCK && !s.ck.extra.toNat.testBit 62
/-- The entry's bit among those whose wait outside the Spindle has been answered: its ring's, or bit 8 for a block task. -/
def ackedOf (acked : BitVec 9) (j : JEntry) : Bool := acked.toNat.testBit (if j.task then 8 else j.ring)
/-- What the entry waits for has come; `acked` names the entries that the fabric has answered, or whose engine has done another step's work. -/
def condMet (s : State) (acked : BitVec 9) (j : JEntry) : Bool :=
  match j.cond with
  | .ready => true
  | .domains ds => needsFailed s ds || needsOn s ds
  | .boundary => !s.tu.pend.any (fun e => e.1 == j.ring)
  | .portDrained p => portDrained s p
  | .bobbinDrained b => (bobn s b).st != .draining
  | .ruleDrain k => !oldEpoch s k
  | .checkEnd n =>
    match (chan s n).run with
    | none => true
    | some r => chansRun s && ackedOf acked j && decide (j.progress.toNat + 32768 ≤ r.total)
  | .flushEnd => s.ld.flush.isNone
  | .testEnd d => (!j.task && ((testOf s d).result.isSome || isFailed s d)) || (ackedOf acked j && (testOf s d).st == .running)
  | .margin l t =>
    match tget none s.tst.margin l with
    | some (t0, n) => decide (t + 1000000 ≤ s.tm.now) || decide (t0 + n ≤ s.tm.now)
    | none => true
  | .stackReply _ => stackReady s j
  | .admFree => !admBusy s
  | .fabric => ackedOf acked j
  | .never => false
def entryNeeds (s : State) (j : JEntry) : List Nat := if j.task then [] else opNeeds s j.opcode j.cmd
/-- The entry's next step may run: its condition holds, and its domains are ON, or one is FAILED (R292). -/
def entryReady (s : State) (acked : BitVec 9) (j : JEntry) : Bool :=
  condMet s acked j && (needsFailed s (entryNeeds s j) || needsOn s (entryNeeds s j))
/-- The Spindle runs. -/
def sqRuns (s : State) : Bool := isOn s dSQ && s.sq.released && !s.sq.inSoftReset

/-! ### The next unit of work (R280, R334, R341) -/
/-- A command of the ring is in progress: its record is not yet acknowledged (R279). -/
def busyRing (R : Ring) : Bool := R.held || R.record.isSome || R.wait.isSome
/-- The command at the head of the ring where the block holds its octets: a pushed copy (R272). -/
def headBytes (R : Ring) : Octets := tget [] R.pushed (R.blockIdx.toNat % ringSize R)
/-- The ring may start the command at its head. A ring whose ENABLE was cleared in a linked group goes on to the group's end (R270). -/
def ringLive (R : Ring) : Bool :=
  (R.enable || (R.stopping && decide (0 < R.left))) && (R.state == .running || R.state == .stalled) && !busyRing R && decide (0 < cmdOcc R)
/-- A `SYS.RESET` of KIND 0 is the ring's next command, as a pushed copy shows. -/
def resetHead (R : Ring) : Bool := ringLive R && R.left == 0 && oct (headBytes R) 0 == 0xF0 && oct (headBytes R) 8 == 0 && !(headBytes R).isEmpty
/-- A `SYS.RESET` has answered DONE, and its record is outstanding: nothing more starts (R334). -/
def resetGoing (s : State) : Bool := (List.range 8).any (fun q => match (ring s q).record with | some rec => rec.opcode == 0xF0 && rec.status == 0 | none => false)
/-- Ring `r` may start by R283 and R334: no other ring's group holds the Spindle, and no other ring has a `SYS.RESET` next, unless `r` is in
a linked group, which runs to its end. -/
def ringFree (s : State) (r : Nat) : Bool :=
  (s.sq.owner.isNone || s.sq.owner == some r) && !resetGoing s &&
  (decide (0 < (ring s r).left) || !(List.range 8).any (fun q => q != r && (s.sq.resetBy == some q || resetHead (ring s q))))
/-- Ring `q` has a command ready beyond doubt: what the block holds of it shows no fence, no link and no reset that could hold it back. -/
def ringSure (s : State) (q : Nat) : Bool :=
  let R := ring s q
  let o := headBytes R
  ringLive R && ringFree s q && !o.isEmpty && R.left == 0 && !(oct o 1).testBit 0 && !(oct o 1).testBit 1 && oct o 0 != 0x01 && oct o 0 != 0xF0 &&
  decide (cplOcc R + 1 ≤ ringSize R)
/-- Place of ring `r` in the round robin that starts after the ring served last (R280). -/
def turnOf (s : State) (r : Nat) : Nat := (r + 7 - s.sq.lastRing) % 8
/-- It is another ring's turn. -/
def turnTaken (s : State) (r : Nat) : Bool := (List.range 8).any (fun q => decide (turnOf s q < turnOf s r) && ringSure s q)
/-- The last unit was a ring command, and an entry of the step queue is ready: its step is next (R341). -/
def stepTurn (s : State) : Bool := !s.sq.lastStep && s.sq.journal.any (entryReady s 0)
/-- The last unit was a step, and a ring has a command ready: the command is next (R341). -/
def ringTurn (s : State) : Bool := s.sq.lastStep && (List.range 8).any (ringSure s)

/-! ### The interrupted-instruction record and the block's own tasks (R342, R346, R348) -/
/-- What a slot of the interrupted-instruction record shows of an entry. -/
def noteIir (s : State) (e : JEntry) : State :=
  let n := if e.task then 8 else e.ring
  setIir s n { iir s n with opcode := BitVec.ofNat 8 e.opcode, tag := e.cmd.tag, object := e.cmd.obj, sub := e.cmd.sub, index := e.index
                            step := BitVec.ofNat 24 e.step, progress := e.progress, task := e.task }
/-- A block task. `opcode` 0x1000 is a T4 routine, whose source `stage` holds, 0x1001 a stack sequence and 0x1002 a retention save. -/
def taskEntry (s : State) (op stage : Nat) (cond : Cond) : JEntry := { ring := 8, task := true, opcode := op, cmd := { ring := 8 }, stage := stage, cond := cond, since := s.tm.now }
def queueTask (s : State) (op stage : Nat) (cond : Cond) : State :=
  let e := taskEntry s op stage cond
  noteIir { s with sq := { s.sq with journal := s.sq.journal ++ [e] } } e
/-- The block's own task `op` holds its entry just while it runs. -/
def keepTask (s : State) (op : Nat) (runs : Bool) : State :=
  let has := s.sq.journal.any (fun e => e.task && e.opcode == op)
  if runs && !has then queueTask s op 0 .never
  else if !runs && has then { s with sq := { s.sq with journal := s.sq.journal.filter (fun e => !(e.task && e.opcode == op)) } }
  else s
/-- The merge window of R442, and the saves of R376. -/
def ownTasks (s : State) : State :=
  keepTask (keepTask s 0x1001 (sqRuns s && s.stk.st == .merging)) 0x1002 (sqRuns s && s.pw.sleep == .entry && s.ck.extra.toNat.testBit 62)

/-! ### What follows at once -/
/-- Everything that follows at once from the state a command leaves: wake events of its raises (R364), the T4 claim of a boundary (R340),
deferred tests that may run (R491), and domains that follow their votes (R370). Two passes over the domains let the dependency votes of R369
act. -/
def settle (s : State) : State :=
  let s := claimT4 (settleWake s)
  let s := (List.range 56).foldl evalTest s
  let s := (List.range 56).foldl evalDomain s
  (List.range 56).foldl evalDomain s

end Sys2Proof.Machine
end

