-- ==== Sys2Proof/Machine/Spindle.lean ====
section
/-! DEFINITION. The life of a ring command: when it may start (R270 to R274, R282, R283, R334), the checks of R276, the
statuses of R288, completion records (R273, R277, R284) and the steps of R341 to R346. -/
namespace Sys2Proof.Machine

/-- What one step of an instruction answers: its completion, or a commit after which it waits for `cond` (R339, R342). -/
inductive StepRes where
  | done (status : BitVec 8) (result : BitVec 64) (s : State)
  | wait (s : State) (cond : Cond) (stage : Nat) (progress : BitVec 64) (scratch : List Nat)
  /-- the ring waits without a journal entry (`WAIT`, R281, R339) -/
  | hold (s : State)

/-- Failure or success without a result. -/
def stop (st : BitVec 8) (s : State) : StepRes := .done st 0 s
/-- The first condition that holds gives the status (R291). -/
def firstOf : List (Bool × BitVec 8) → Option (BitVec 8)
  | [] => none
  | (b, st) :: t => if b then some st else firstOf t
/-- Conditions in order, else the effect. -/
def guarded (l : List (Bool × BitVec 8)) (s : State) (k : StepRes) : StepRes :=
  match firstOf l with
  | some st => stop st s
  | none => k
/-- Instruction effects in starter service that R485 forbids. -/
def inStarter (s : State) : Bool := s.pw.starter

/-! ### Objects and privileges (R17, R276, R285, R286, R295, R298) -/
/-- Port number `p` lies within a wider port that is defined, and names no port (R9). -/
def covered (s : State) (p : Nat) : Bool :=
  (List.range p).any (fun q => match pdef s q with | some d => decide (p < q + d.width) | none => false)
/-- OBJECT names an object (R9, R17). `PORT.DEFINE` may name a number that another port covers: its lanes then overlap (R299). -/
def objExists (s : State) (op kind num sub : Nat) : Bool :=
  match kind with
  | 0x00 | 0x0A | 0x11 => num == 0
  | 0x01 => decide (num < 32) && (!covered s num || (op == 0x10 && sub == 0))
  | 0x02 | 0x0E | 0x0F => decide (num < 32)
  | 0x03 => decide (num < 262144)
  | 0x04 => decide (num < 4096)
  | 0x05 => decide (num < 65536)
  | 0x06 => decide (num < 1024)
  | 0x07 | 0x09 => decide (num < 16384)
  | 0x08 => decide (num < 256)
  | 0x0B => decide (num < 56) || num == 63
  | 0x0C | 0x0D => decide (num < 64)
  | 0x10 => decide (num < 8)
  | _ => false
/-- Kinds and sub-ids that `READ` accepts (R298). -/
def readAccepts (kind sub : Nat) : Bool :=
  match kind with
  | 0x00 => sub == 0x10 || sub == 0x20
  | 0x01 => decide (sub ≤ 0x07) || (decide (0x10 ≤ sub) && decide (sub ≤ 0x22)) || (decide (0x30 ≤ sub) && decide (sub ≤ 0x32)) || sub == 0x40
  | 0x03 | 0x07 | 0x0A | 0x11 => decide (sub ≤ 1)
  | 0x04 | 0x06 | 0x08 | 0x0B | 0x0D => sub == 0
  | 0x05 => decide (sub ≤ 2)
  | 0x0C => decide (sub ≤ 3)
  | _ => false
/-- OBJECT is of a kind and SUB_ID of a value that the instruction accepts (R295). -/
def accepts (op kind num sub : Nat) : Bool :=
  match op with
  | 0x00 | 0x01 | 0x02 | 0x03 | 0x72 | 0x73 | 0x90 | 0xA0 | 0xA1 | 0xA2 | 0xA3 | 0xF0 | 0xF1 => kind == 0 && sub == 0
  | 0x04 => readAccepts kind sub
  | 0x10 => kind == 1 && decide (sub ≤ 1)
  | 0x11 | 0x12 | 0x14 | 0xB1 => kind == 1 && sub == 0
  | 0x13 => kind == 1 && (decide (sub ≤ 2) || (decide (4 ≤ sub) && decide (sub ≤ 7)))
  | 0x15 => kind == 2 && sub == 0
  | 0x16 => kind == 1 && num == 24 && sub == 0
  | 0x17 => kind == 1 && decide (sub ≤ 18)
  | 0x20 | 0x21 | 0x23 => kind == 3 && sub == 0
  | 0x22 => (kind == 3 && (sub == 0 || sub == 2 || sub == 3)) || (kind == 0 && sub == 1) || (kind == 0x10 && sub == 0)
  | 0x24 => kind == 4 && sub == 0
  | 0x25 => kind == 6 && decide (sub ≤ 1)
  | 0x30 | 0x31 => kind == 5 && sub == 0
  | 0x32 => kind == 5 && decide (sub ≤ 1)
  | 0x33 => (kind == 5 && sub == 0) || (kind == 0 && sub == 1)
  | 0x34 => kind == 7 && sub == 0
  | 0x40 => kind == 8 && sub == 0
  | 0x41 | 0x42 | 0x43 => kind == 9 && sub == 0
  | 0x50 | 0x51 | 0x52 | 0x53 | 0x54 | 0x56 => kind == 0x0A && sub == 0
  | 0x55 => (kind == 1 || kind == 0x0A) && sub == 0
  | 0x60 | 0x62 => kind == 0x11 && sub == 0
  | 0x61 | 0x63 => kind == 0x11 && decide (sub ≤ 1)
  | 0x70 | 0x71 | 0xB0 => kind == 0x0B && sub == 0
  | 0x74 => (kind == 0 && decide (sub ≤ 1)) || (kind == 1 && sub == 0)
  | 0x75 => (kind == 0 || kind == 0x0B) && sub == 0
  | 0x80 => kind == 0x0C && decide (sub ≤ 2)
  | 0x81 => kind == 0x0C && sub == 0
  | 0x91 => kind == 0 && decide (sub ≤ 2)
  | 0x92 | 0x93 => kind == 0x0E && sub == 0
  | 0xC0 | 0xC1 | 0xC2 => kind == 0x0D && sub == 0
  | 0xC3 => kind == 0 && decide (sub ≤ 15)
  | _ => false
def bobGranted (g : Grant) (b : Nat) : Bool := decide (g.firstBob ≤ b) && decide (b < g.firstBob + g.bobs)
def skeinGranted (g : Grant) (k : Nat) : Bool := decide (g.firstSkein ≤ k) && decide (k < g.firstSkein + g.skeins)
/-- Opcodes of R295; no other opcode is an instruction. -/
def listed (op : Nat) : Bool :=
  [0x00, 0x01, 0x02, 0x03, 0x04, 0x10, 0x11, 0x12, 0x13, 0x14, 0x15, 0x16, 0x17, 0x20, 0x21, 0x22, 0x23, 0x24, 0x25, 0x30, 0x31,
   0x32, 0x33, 0x34, 0x40, 0x41, 0x42, 0x43, 0x50, 0x51, 0x52, 0x53, 0x54, 0x55, 0x56, 0x60, 0x61, 0x62, 0x63, 0x70, 0x71, 0x72,
   0x73, 0x74, 0x75, 0x80, 0x81, 0x90, 0x91, 0x92, 0x93, 0xA0, 0xA1, 0xA2, 0xA3, 0xB0, 0xB1, 0xC0, 0xC1, 0xC2, 0xC3, 0xF0,
   0xF1].contains op
/-- The OPCODE byte of a command of a row: the row's own, unless the command carries one that no row has. -/
def opOf (op : Nat) (c : Cmd) : Nat :=
  match c.opcode with
  | some o => if listed o.toNat then op else o.toNat
  | none => op
/-- Bytes of the ring that a `BOBBIN.OPEN` opens (R188, R307). -/
def openBytes (c : Cmd) : Nat := (if fld c 16 0 2 = 2 then 16 else 32) * 2 ^ fld c 17 0 8
/-- What a Tenant ring may issue (R285, R286, R295): every ring it opens lies in the grant's window. -/
def tenantMay (s : State) (g : Grant) (op : Nat) (c : Cmd) : Bool :=
  match op with
  | 0x00 | 0x03 => true
  | 0x01 => fld c 8 0 8 == 0
  | 0x02 => fld c 8 0 8 == 1 ||
      (fld c 8 0 8 == 2 && (if fbit c 11 0 then fld c 16 0 3 == c.ring else bobGranted g (fld c 16 0 18)))
  | 0x04 => objKind c == 3 && bobGranted g (objNum c)
  | 0x20 => objKind c == 3 && bobGranted g (objNum c) && fld c 18 0 6 == g.window
      && (fld c 16 0 2 == 3 || bobGranted g (fld c 20 0 18)) && (fld c 16 0 2 != 1 || skeinGranted g (fld c 24 0 12))
      && (fld c 16 0 2 == 0 || inWindow s g.window (fld c 8 0 64) (openBytes c))
  | 0x21 | 0x23 => objKind c == 3 && bobGranted g (objNum c)
  | 0x22 => objKind c == 3 && c.sub == 0 && bobGranted g (objNum c) && skeinGranted g (fld c 8 0 16)
  | _ => false
/-- Instructions issued at Owner privilege only (R285, R295). -/
def ownerOnly (op : Nat) (c : Cmd) : Bool :=
  op == 0x92 || op == 0xA0 || op == 0xA1 || op == 0xA2 || op == 0xA3 || op == 0xF0 || (op == 0x91 && c.sub == 2)
def privOk (s : State) (R : Ring) (op : Nat) (c : Cmd) : Bool :=
  if R.priv = 0 then true else if R.priv = 1 then !ownerOnly op c else tenantMay s R.grant op c
/-- Checks 1 to 5 of R276. -/
def preCheck (s : State) (op : Nat) (c : Cmd) : Option (BitVec 8) :=
  firstOf [
    (!listed op, sBAD_OPCODE),
    (decide (32 ≤ c.flags.toNat) || onFail c == 3, sBAD_OPERAND),
    (!privOk s (ring s c.ring) op c, sPRIVILEGE),
    (!accepts op (objKind c) (objNum c) c.sub.toNat, sBAD_OPERAND),
    (!objExists s op (objKind c) (objNum c) c.sub.toNat, sNO_OBJECT)]

/-! ### Buffers (R290, R459) -/
/-- The buffer of `len` bytes at `addr` lies in window `w`, which a Tenant may choose only as its grant's. -/
def bufOk (s : State) (c : Cmd) (addr w len : Nat) : Bool :=
  decide (addr < 2 ^ 56) && decide (w < 64) && inWindow s w addr len &&
  (decide ((ring s c.ring).priv.toNat < 2) || (ring s c.ring).grant.window == w)
/-- `k` acts on the answer to the instruction's buffer read of `len` bytes: its octets, or none where the fabric answered with ERROR. With no
answer there yet the step ends in YIELD, and the next goes on at `stage` (R290, R339). -/
def withRead (j : JEntry) (len stage : Nat) (s : State) (k : Option Octets → StepRes) : StepRes :=
  match j.cmd.reads with
  | [] => .wait s .fabric stage j.progress []
  | r :: _ => k (if r.error then none else some ((r.data ++ List.replicate len 0).take len))
/-- The instruction writes `o` at `addr`, and `k` goes on once the write is acknowledged (R278, R342); an ERROR makes it BAD_OPERAND (R459).
With no acknowledgement there yet the step ends in YIELD, and the next goes on at `stage` with what the write carries (R339). -/
def withWrite (j : JEntry) (addr : Nat) (o : Octets) (stage : Nat) (scratch : List Nat) (s : State) (k : State → StepRes) : StepRes :=
  match j.cmd.writeAck with
  | none => .wait s .fabric stage j.progress scratch
  | some e => if e then stop sBAD_OPERAND (fabWrite s addr o true) else k (fabWrite s addr o false)
/-- Octets in the SCRATCH of an entry (R346). -/
def packed (o : Octets) : List Nat := o.map BitVec.toNat
def unpacked (l : List Nat) : Octets := l.map (BitVec.ofNat 8)

/-! ### Progress of rings -/
/-- What a fence that becomes next now will wait for (R282). The record of R349 is no command's. -/
def fenceSnap (s : State) : List Nat :=
  (List.range 8).map (fun q => let R := ring s q; if busyRing R && !R.iirRecord then R.completed + 1 else 0)
def fenceMask (op : Nat) (c : Cmd) : Nat := if op = 0x01 then fld c 8 0 8 else 0
def fenceOk (s : State) (R : Ring) (op : Nat) (c : Cmd) : Bool :=
  !(fenceFlag c || op == 0x01) ||
  (List.range 8).all (fun q => !(fenceMask op c).testBit q || decide ((R.fenceNeed[q]?).getD 0 ≤ (ring s q).completed))
/-- The command is the one at the head of the ring as far as the block knows it: a pushed copy is taken as pushed (R272). -/
def headOk (R : Ring) (op : Nat) (c : Cmd) : Bool :=
  match tget [] R.pushed (R.blockIdx.toNat % ringSize R) with
  | [] => true
  | o => o == cmdBytes op c
/-- The linked group as the command gives it fits what stands in the ring (R283): 65 is a chain of 64 with LINK. -/
def groupOk (R : Ring) (c : Cmd) : Bool :=
  if R.left = 0 then
    if linkFlag c then decide (2 ≤ c.group) && decide (min 64 c.group ≤ cmdOcc R) else c.group == 1
  else if R.skip == some sBAD_OPERAND then linkFlag c
  else linkFlag c == decide (1 < R.left)
/-- `SYS.RESET` starts only when nothing else is in progress; a `WAIT` does not hold it back (R334). -/
def resetOk (s : State) (op : Nat) (c : Cmd) : Bool :=
  op != 0xF0 || fld c 8 0 8 != 0 ||
  (List.range 8).all (fun q => let R := ring s q; q == c.ring || (!R.held && R.record.isNone && (R.left == 0 || R.wait.isSome)))
/-- The Spindle may start the command at the head of its ring as its next unit of work (R270 to R283, R334, R341). -/
def ready (s : State) (op : Nat) (c : Cmd) : Bool :=
  let R := ring s c.ring
  decide (c.ring < 8) && sqRuns s && ringLive R && ringFree s c.ring && headOk R op c && groupOk R c && fenceOk s R op c &&
  !stepTurn s && (decide (0 < R.left) || !turnTaken s c.ring)
/-- Slots the start needs in the completion queue (R274). -/
def roomNeed (R : Ring) (c : Cmd) : Nat := if R.left = 0 ∧ c.group ≤ 64 then c.group else 1
def hasRoom (R : Ring) (c : Cmd) : Bool := decide (roomNeed R c + cplOcc R ≤ ringSize R)

/-- The ring after a command has started: TAG, the group it begins, its WAIT window and the Spindle's holder (R281, R283). -/
def startRing (s : State) (op : Nat) (c : Cmd) : State :=
  let R := ring s c.ring
  let chain := R.left = 0 ∧ 64 < c.group
  let left := if R.left = 0 then (if linkFlag c then min 64 c.group else 0) else R.left
  let R' := { R with
    state := .running, tag := c.tag, left := left, skip := if chain then some sBAD_OPERAND else R.skip
    openSerial := R.lastSerial.getD s.ic.serial, lastSerial := some s.ic.serial
    pushed := tset [] R.pushed (R.blockIdx.toNat % ringSize R) [] }
  let s := setRing s c.ring R'
  { s with sq := { s.sq with lastStep := false, lastRing := c.ring, resetBy := if s.sq.resetBy = some c.ring then none else s.sq.resetBy
                             owner := if 0 < left ∧ op ≠ 0x02 ∧ R'.skip ≠ some sBAD_OPERAND then some c.ring else s.sq.owner } }

/-- Write the command's record (R273, R277): it stays outstanding until the fabric acknowledges it. ON_FAIL acts (R284). -/
def finish (s : State) (op : Nat) (c : Cmd) (st : BitVec 8) (result : BitVec 64) : State :=
  let R := ring s c.ring
  let fails := !succeeded st && R.skip.isNone
  setRing s c.ring { R with
    held := false, wait := none
    record := some { status := st, opcode := BitVec.ofNat 8 op, tag := c.tag, index := R.blockIdx
                     linked := decide (0 < R.left), irq := irqFlag c, result := result }
    skip := if fails && decide (1 ≤ onFail c) && decide (1 < R.left) then some sABORTED_GROUP else R.skip
    haltAfter := R.haltAfter || (fails && onFail c == 2) }

/-- Journal entry of a ring's command at its first step (R346). -/
def jentry (s : State) (op : Nat) (c : Cmd) : JEntry :=
  { ring := c.ring, opcode := op, cmd := c, index := (ring s c.ring).blockIdx, linked := decide (0 < (ring s c.ring).left), since := s.tm.now }

/-- What a step's answer does to the ring and the step queue. -/
def take (j : JEntry) (r : StepRes) : State :=
  match r with
  | .done st res s => finish s j.opcode j.cmd st res
  | .hold s => setRing s j.ring { ring s j.ring with held := false }
  | .wait s cond stage prog scr =>
    let s := setRing s j.ring { ring s j.ring with held := true }
    let e := { j with step := j.step + 1, cond := cond, stage := stage, progress := prog, scratch := scr, since := s.tm.now, stalled := false }
    let s := { s with sq := { s.sq with journal := s.sq.journal ++ [e] } }
    noteIir s e

/-- Instructions that R280 does not turn away, by their own entries: reads, which fail for no state of an object (R151, R297, R343),
`SYS.RESET`, which waits for what runs (R334), those that run between the steps of a sweep of the station table (R322), and `LEDGER.READ`
and `LEDGER.FLUSH`, which wait for a flush that runs (R416). -/
def besideOthers (s : State) (op : Nat) (c : Cmd) : Bool :=
  [0x04, 0x43, 0x50, 0x51, 0x52, 0x56, 0xF0].contains op || (op == 0x55 && objKind c == 0x0A) || ((op == 0x90 || op == 0x91) && s.ld.flush.isSome)
/-- A multi-step instruction in progress targets the command's object (R280). -/
def objectHeld (s : State) (op : Nat) (c : Cmd) : Bool := !besideOthers s op c && s.sq.journal.any (fun e => !e.task && e.cmd.obj == c.obj)
/-- A `TALLY.WRITE` that is refused counts in the Ledger and raises its event (R419). -/
def busyStop (op : Nat) (s : State) : StepRes := stop sBUSY (if op = 0x92 then raise (ldAdd s 0xE68 1) 61 3 else s)

/-- The first step of an instruction past the checks 1 to 5: reserved operand bits (R289, R291), an object that another
instruction holds (R280), the transient votes of R292, then its body. -/
def firstStep (use : Cmd → List (Nat × Nat × Nat)) (body : JEntry → State → StepRes) (j : JEntry) (s : State) : StepRes :=
  let ds := opNeeds s j.opcode j.cmd
  if !clean j.cmd (use j.cmd) then stop sBAD_OPERAND s
  else if objectHeld s j.opcode j.cmd then busyStop j.opcode s
  else if needsFailed s ds then stop sPOWER_FAILED s
  else if !needsOn s ds then .wait s (.domains ds) 0 0 []
  else body j s

/-- The Spindle starts the command at the head of its ring: skipped commands complete without acting, checks come in the
order of R276, and the first step runs. -/
def runCommand (op : Nat) (use : Cmd → List (Nat × Nat × Nat)) (body : JEntry → State → StepRes) (c : Cmd) (s : State) : State :=
  match (ring s c.ring).skip with
  | some st => finish s op c st 0
  | none =>
    if c.fetchErr then finish s op c sBAD_OPERAND 0
    else match preCheck s op c with
      | some st => finish s op c st 0
      | none => take (jentry s op c) (firstStep use body (jentry s op c) s)

/-- A row of an instruction: nothing happens unless the ring can start it; without room in the completion queue the ring
stalls (R274); otherwise it starts and runs. -/
def startRow (op : Nat) (use : Cmd → List (Nat × Nat × Nat)) (body : JEntry → State → StepRes) (c : Cmd) (s : State) : State :=
  if !ready s op c then s
  else if !hasRoom (ring s c.ring) c then setRing s c.ring { ring s c.ring with state := .stalled }
  else if !resetOk s op c then { s with sq := { s.sq with resetBy := some c.ring } }
  else runCommand op use body c (startRing s op c)

/-- The outcome of a row of an instruction. -/
def instr (op : Nat) (use : Cmd → List (Nat × Nat × Nat)) (body : JEntry → State → StepRes) (c : Cmd) (s : State) :
    Host.Outcome State Fault Refusal := .next (settle (startRow (opOf op c) use body c s))
/-- The outcome of any other row. -/
def event (s : State) : Host.Outcome State Fault Refusal := .next (settle s)

/-- The 16 bytes of a record (R277). -/
def recBytes (r : CmdRecord) : Octets :=
  le 1 r.status.toNat ++ le 1 r.opcode.toNat ++ le 2 r.tag.toNat ++
  le 4 (r.index.toNat + b2n r.linked * 2 ^ 17 + b2n r.irq * 2 ^ 18) ++ le 8 r.result.toNat

end Sys2Proof.Machine
end

