-- ==== Sys2Proof/Machine/General.lean ====
section
/-! DEFINITION. `NOP`, `FENCE`, `WAIT`, `ECHO` (R281, R282, R295, R296) and the ends of a `WAIT`. -/
namespace Sys2Proof.Machine

/-- `NOP` has no operands and no effect. -/
def useNone (_ : Cmd) : List (Nat × Nat × Nat) := []
def bodyNop (_ : JEntry) (s : State) : StepRes := stop sDONE s
def execNop (c : Cmd) (s : State) : Host.Outcome State Fault Refusal := instr 0x00 useNone bodyNop c s

/-- `FENCE` acts only under R282, before it starts. -/
def useFence (_ : Cmd) : List (Nat × Nat × Nat) := [(8, 0, 8)]
def bodyFence (_ : JEntry) (s : State) : StepRes := stop sDONE s
def execFence (c : Cmd) (s : State) : Host.Outcome State Fault Refusal := instr 0x01 useFence bodyFence c s

/-- `ECHO` copies operand bytes 8 to 15 into RESULT. -/
def useEcho (_ : Cmd) : List (Nat × Nat × Nat) := [(8, 0, 64)]
def bodyEcho (j : JEntry) (s : State) : StepRes := .done sDONE (BitVec.ofNat 64 (fld j.cmd 8 0 64)) s
def execEcho (c : Cmd) (s : State) : Host.Outcome State Fault Refusal := instr 0x03 useEcho bodyEcho c s

/-! ### `WAIT` -/
def useWait (c : Cmd) : List (Nat × Nat × Nat) :=
  match fld c 8 0 8 with
  | 0 => [(8, 0, 8), (9, 0, 1), (12, 0, 32), (16, 0, 11)]
  | 1 => if fld c 10 0 8 = 0 then [(8, 0, 8), (9, 0, 1), (10, 0, 8), (12, 0, 32), (16, 0, 64)]
         else [(8, 0, 8), (9, 0, 1), (10, 0, 8), (12, 0, 32), (16, 0, 46), (22, 0, 48)]
  | _ => [(8, 0, 8), (9, 0, 1), (10, 0, 8), (11, 0, 1), (12, 0, 32), (16, 0, if fbit c 11 0 then 3 else 18), (20, 0, 17)]
/-- Producer index, consumer index, HOST_IDX, BLOCK_IDX and size of what an INDEX condition names. -/
def waitIdx (s : State) (c : Cmd) : Nat × Nat × Nat × Nat :=
  if fbit c 11 0 then
    let R := ring s (fld c 16 0 3)
    (cplOcc R, R.cplHostIdx.toNat, R.cplBlockIdx.toNat, ringSize R)
  else
    let B := bobn s (fld c 16 0 18)
    (bocc B, B.hostIdx, B.blockIdx, bsize B)
def waitBobOk (s : State) (c : Cmd) : Bool :=
  fbit c 11 0 || (bobn s (fld c 16 0 18)).st == .opened || (bobn s (fld c 16 0 18)).st == .draining
/-- The `BAD_OPERAND` cases of R296, and R283's of a `WAIT` that is not the first of its group. -/
def waitBad (s : State) (c : Cmd) : Bool :=
  let size := (waitIdx s c).2.2.2
  (ring s c.ring).inGroup ||
  match fld c 8 0 8 with
  | 0 => fld c 16 0 11 == 0x7FF
  | 1 => decide (1 < fld c 10 0 8) || (fld c 10 0 8 == 0 && fld c 16 0 64 == 0) || (fld c 10 0 8 == 1 && decide (999999999 < fld c 16 16 30))
  | 2 => decide (3 < fld c 10 0 8) || !waitBobOk s c ||
         (if fld c 10 0 8 < 2 then decide (size < fld c 20 0 17) else decide (2 * size ≤ fld c 20 0 17))
  | _ => true
/-- The condition holds (R281). -/
def waitMet (s : State) (w : WaitInfo) : Bool :=
  let c := w.cmd
  match fld c 8 0 8 with
  | 0 => decide (w.openSerial < tget 0 s.ic.lastRaise (fld c 16 0 11))
  | 1 => if fld c 10 0 8 = 0 then decide (w.startCount + fld c 16 0 64 ≤ s.tm.count)
         else decide (t96n (bitsT96 (fld c 16 0 96)) ≤ t96n (nowT s))
  | _ =>
    let (occ, host, block, size) := waitIdx s c
    let v := fld c 20 0 17
    match fld c 10 0 8 with
    | 0 => decide (occ ≤ v)
    | 1 => decide (v ≤ occ)
    | 2 => decide ((host + 2 * size - v) % (2 * size) < size)
    | _ => decide ((block + 2 * size - v) % (2 * size) < size)
def bodyWait (j : JEntry) (s : State) : StepRes :=
  let c := j.cmd
  if waitBad s c then stop sBAD_OPERAND s
  else
    let R := ring s c.ring
    .hold (setRing s c.ring { R with
      state := .waiting
      wait := some { cmd := c, openSerial := R.openSerial, startCount := s.tm.count, startNow := s.tm.now, index := R.blockIdx, linked := decide (0 < R.left) } })
def execWait (c : Cmd) (s : State) : Host.Outcome State Fault Refusal := instr 0x02 useWait bodyWait c s
/-- T64 of the present time, the RESULT of a `WAIT`. -/
def nowResult (s : State) : BitVec 64 := BitVec.ofNat 64 (t64 (nowT s))
/-- End the `WAIT` of ring `r` with a status. -/
def endWait (s : State) (r : Nat) (w : WaitInfo) (st : BitVec 8) : State :=
  let s := setRing s r { ring s r with state := .running }
  finish s 0x02 { w.cmd with ring := r } st (nowResult s)
/-- `WAIT_CONDITION_MET` of ring `r`: DONE, or BUSY when its bobbin was closed or became STALE (R296). -/
def waitConditionMet (r : Nat) (s : State) : State :=
  match (ring s r).wait with
  | none => s
  | some w =>
    if fld w.cmd 8 0 8 = 2 ∧ waitBobOk s w.cmd = false then endWait s r w sBUSY
    else if waitMet s w then endWait s r w sDONE else s
def execWaitConditionMet (r : Nat) (s : State) : Host.Outcome State Fault Refusal := event (waitConditionMet r s)
/-- `WAIT_TIMEOUT` of ring `r`, once TIMEOUT µs have passed: DONE_NOTE, or BUSY with TIMEOUT_FAILS (R281). -/
def waitTimeout (r : Nat) (s : State) : State :=
  match (ring s r).wait with
  | none => s
  | some w =>
    if fld w.cmd 12 0 32 ≠ 0 ∧ w.startNow + fld w.cmd 12 0 32 * 1000 ≤ s.tm.now then
      endWait s r w (if fbit w.cmd 9 0 then sBUSY else sDONE_NOTE)
    else s
def execWaitTimeout (r : Nat) (s : State) : Host.Outcome State Fault Refusal := event (waitTimeout r s)

end Sys2Proof.Machine
end

