-- ==== Sys2Proof/Machine/TimeOps.lean ====
section
/-! DEFINITION. The time unit: `TIME.*` (R323, R324), its ticks (R69), boundaries (R70 to R73), reference (R75), pulses (R101
to R103), the starter counter (R486, R488), readouts (R104) and the time-stamp queues (R86 to R93). -/
namespace Sys2Proof.Machine

/-- An instance that follows another's time (R77, R439, R445), one in JOINING or MERGING included, which the spec leaves open (log 95). -/
def followsTime (s : State) : Bool :=
  s.stk.st == .joining || s.stk.st == .member || s.stk.st == .orphan || s.stk.st == .merging || s.stk.reserved
/-- Queue a change for the next realignment boundary and wait for it (R70). -/
def awaitBoundary (j : JEntry) (ch : TimeChange) (s : State) : StepRes :=
  .wait { s with tu := { s.tu with pend := s.tu.pend ++ [(j.ring, ch)] } } .boundary 1 0 []
/-- After the boundary: DONE with the RESULT of the change. -/
def afterBoundary (j : JEntry) (s : State) : StepRes := .done sDONE (tget 0 s.tu.result j.ring) s

def useTimeSet (_ : Cmd) : List (Nat × Nat × Nat) := [(8, 0, 46), (14, 0, 48)]
/-- `TIME.SET` (R68, R73, R323). -/
def bodyTimeSet (j : JEntry) (s : State) : StepRes :=
  if j.stage = 1 then afterBoundary j s
  else guarded [(inStarter s, sBUSY), (decide (999999999 < fld j.cmd 8 16 30), sBAD_OPERAND), (followsTime s, sBUSY)] s
    (awaitBoundary j (.set (bitsT96 (fld j.cmd 8 0 96))) s)
def execTimeSet (c : Cmd) (s : State) : Host.Outcome State Fault Refusal := instr 0x60 useTimeSet bodyTimeSet c s

def useTimeAdjust (c : Cmd) : List (Nat × Nat × Nat) := if c.sub = 0 then [(8, 0, 72)] else [(8, 0, 72), (20, 0, 32)]
/-- OFFSET of `TIME.ADJUST`, an s72 in units of 2^-16 ns. -/
def adjOffset (c : Cmd) : Int := sgn 72 (fld c 8 0 72)
/-- `TIME.ADJUST`: step (sub-id 0) and slew (sub-id 1) (R72, R73, R323). -/
def bodyTimeAdjust (j : JEntry) (s : State) : StepRes :=
  let o := adjOffset j.cmd
  let mag := fld j.cmd 20 0 32
  if j.stage = 1 then afterBoundary j s
  else if j.cmd.sub = 0 then
    guarded [(inStarter s, sBUSY), (decide (2 ^ 63 < o.natAbs), sBAD_OPERAND), (followsTime s, sBUSY), (o == 0, sDONE_NOTE)] s
      (awaitBoundary j (.step o) s)
  else
    guarded [(inStarter s, sBUSY), (decide (65536000000000 < o.natAbs), sBAD_OPERAND),
      (o != 0 && (mag == 0 || decide (4294967 < mag)), sBAD_OPERAND), (followsTime s, sBUSY)] s
      (awaitBoundary j (.slew o mag) s)
def execTimeAdjustStep (c : Cmd) (s : State) : Host.Outcome State Fault Refusal := instr 0x61 useTimeAdjust bodyTimeAdjust c s
def execTimeAdjustSlew (c : Cmd) (s : State) : Host.Outcome State Fault Refusal := instr 0x61 useTimeAdjust bodyTimeAdjust { c with sub := 1 } s

def useTimeRate (_ : Cmd) : List (Nat × Nat × Nat) := [(8, 0, 32)]
/-- `TIME.RATE` (R71, R324). -/
def bodyTimeRate (j : JEntry) (s : State) : StepRes :=
  let r := sgn 32 (fld j.cmd 8 0 32)
  if j.stage = 1 then afterBoundary j s
  else guarded [(inStarter s, sBUSY), (decide (4294967 < r.natAbs), sBAD_OPERAND), (followsTime s, sBUSY)] s (awaitBoundary j (.rate r) s)
def execTimeRate (c : Cmd) (s : State) : Host.Outcome State Fault Refusal := instr 0x62 useTimeRate bodyTimeRate c s

def useTimePps (c : Cmd) : List (Nat × Nat × Nat) := if c.sub = 0 then [(8, 0, 2), (12, 0, 32), (16, 0, 32)] else [(8, 0, 1)]
/-- The setting that governs a rising edge now: a new one from 1 ms after its completion on (R324). -/
def ppsInForce (s : State) : PpsSet :=
  match s.tu.ppsSetAt with
  | some t => if s.tm.now < t + 1000000 then s.tu.ppsPrev else s.tu.pps
  | none => s.tu.pps
/-- `TIME.PPS`: `PPS_OUT` (sub-id 0, R101) and `PPS_IN` (sub-id 1, R103). -/
def bodyTimePps (j : JEntry) (s : State) : StepRes :=
  let c := j.cmd
  if c.sub = 0 then
    let w := fld c 12 0 32
    let o := sgn 32 (fld c 16 0 32)
    guarded [(w == 0 || decide (999999 < w) || decide (499999999 < o.natAbs), sBAD_OPERAND)] s
      (stop sDONE { s with tu := { s.tu with pps := { en := fbit c 8 0, always := fbit c 8 1, width := w, offset := o }, ppsPrev := ppsInForce s, ppsSetAt := some s.tm.now } })
  else stop sDONE { s with tu := { s.tu with ppsInEn := fbit c 8 0 } }
def execPpsOutSet (c : Cmd) (s : State) : Host.Outcome State Fault Refusal := instr 0x63 useTimePps bodyTimePps c s
def execPpsInSet (c : Cmd) (s : State) : Host.Outcome State Fault Refusal := instr 0x63 useTimePps bodyTimePps { c with sub := 1 } s

/-! ### Ticks -/
/-- One TU cycle (R69). -/
def tuTick (u : TimeUnit) : TimeUnit :=
  let x := min u.slewLeft (u.slewMag * 65536)
  let add : Int := 281474976710656 + u.rate * 65536 + (if u.slewNeg then -(x : Int) else x)
  let total : Nat := ((u.sub : Int) + add).toNat
  let ns := u.ns + total / 2 ^ 48
  { u with sub := total % 2 ^ 48, slewLeft := u.slewLeft - x, cycles := u.cycles + 1
           ns := if ns ≥ 1000000000 then ns - 1000000000 else ns
           sec := if ns ≥ 1000000000 then (u.sec + 1) % 2 ^ 48 else u.sec }
/-- The starter counter at real time `now`: 2.5 ns at every cycle of FIO since its last trim (R486). -/
def starterAt (x : Starter) (now : Nat) : Starter := if x.running then { x with t := x.trimT + (now - x.trimAt) * 2 / 5 * 163840 } else x
/-- Number of the last whole second plus `offset` ns that time `t` has reached. -/
def ppsSecond (offset : Int) (t : T96) : Int := ((t96n t : Int) - offset * 65536) / 65536000000000
/-- One nanosecond passes (log 3): the clocks that run advance by a cycle, and the time may reach the instant of a pulse (R101).
The time unit advances on its normal clock alone: of the fallback oscillator the spec says nothing (log 93). -/
def tick (s : State) : State :=
  let now := s.tm.now + 1
  let tuOn := onNormal s dTU
  let t := { s with
    tm := { s.tm with now := now, count := if s.st0.running || tuOn then s.tm.count + 1 else s.tm.count }
    tu := if tuOn then tuTick s.tu else s.tu
    st0 := starterAt s.st0 now }
  let o := (ppsInForce t).offset
  { t with tu := { t.tu with ppsDue := tuOn && decide (ppsSecond o (nowT s) < ppsSecond o (nowT t)) } }

/-! ### Realignment boundaries -/
def tuNow (u : TimeUnit) : Int := (t96n { sec := u.sec, ns := u.ns, frac := u.sub / 2 ^ 32 } : Nat)
/-- Put the time unit at `t`, a step under R73. -/
def tuLoad (u : TimeUnit) (n : Int) (lowBits : Nat) : TimeUnit :=
  let t := nT96 n
  { u with sec := t.sec, ns := t.ns, sub := t.frac * 2 ^ 32 + lowBits, stepped := true, stepAcc := u.stepAcc + (n - tuNow u), ppsDue := false, lastStamp := [] }
def setResult (u : TimeUnit) (r : Nat) (v : BitVec 64) : TimeUnit := { u with result := tset 0 u.result r v }
def tuT64 (u : TimeUnit) : BitVec 64 := BitVec.ofNat 64 (t64 (nT96 (tuNow u)))
/-- End of starter service at the boundary (R488). -/
def leaveStarter (s : State) : State :=
  let s := { s with st0 := { s.st0 with running := false }, pw := { s.pw with starter := false }, port := { s.port with starterPort := 0 } }
  raise s 63 17
/-- One waiting change takes effect at the boundary E (R70 to R73, R435, R442, R488). A slew that a zero offset or a load of the time ends
raises no EV_TU_SLEW_DONE, which the spec leaves open (log 94). -/
def applyChange (s : State) (e : Nat × TimeChange) : State :=
  let u := s.tu
  match e.2 with
  | .set t =>
    let u := tuLoad { u with slewLeft := 0, slewing := false } (t96n t) 0
    raise { s with tu := setResult u e.1 (tuT64 u) } 49 2
  | .step o =>
    let u := tuLoad u (tuNow u + o) (u.sub % 2 ^ 32)
    raise { s with tu := setResult u e.1 (tuT64 u) } 49 2
  | .slew o mag =>
    let rest : Int := ((u.slewLeft / 2 ^ 32 : Nat) : Int)
    let old := ofInt 64 (if u.slewNeg then -rest else rest)
    { s with tu := setResult { u with slewLeft := o.natAbs * 2 ^ 32, slewMag := if o = 0 then u.slewMag else mag, slewNeg := if o = 0 then u.slewNeg else decide (o < 0), slewing := decide (o ≠ 0) } e.1 old }
  | .rate r => { s with tu := setResult { u with rate := r } e.1 (BitVec.ofNat 64 (ofInt 32 u.rate).toNat) }
  | .starter =>
    let u := { tuLoad u s.st0.t 0 with stepAcc := u.stepAcc, marks := [{ at_ := 0, base := (s.st0.t * 2 ^ 32 : Nat) - (s.tm.now * 2 ^ 48 : Nat), acc := u.stepAcc }] }
    leaveStarter (raise { s with tu := setResult u e.1 0 } 49 2)
  | .stackStep o =>
    let u := tuLoad u (tuNow u + o) (u.sub % 2 ^ 32)
    let s := raise { s with tu := u } 49 2
    if s.stk.st == .merging then
      let s := { s with stk := { s.stk with st := .member, quality := some .locked, stepOfs := o, stepTime := tuT64 u, acc := 0, n := 0, aPrev := 0, offsets := [] } }
      raise (raise s 62 4) 62 3
    else { s with stk := { s.stk with acc := 0, n := 0, aPrev := 0, joinStepped := true } }
/-- `REALIGNMENT_BOUNDARY`: the TU cycle is a multiple of 1,024; every shadow is realigned (R79), and every waiting change takes effect. -/
def realignmentBoundary (s : State) : State :=
  if isOn s dTU ∧ s.tu.cycles % 1024 = 0 then
    let l := s.tu.pend
    let s := { s with tu := { s.tu with pend := [], shadow := [] } }
    if l.isEmpty then s else pushMark (l.foldl applyChange s)
  else s
def execRealignmentBoundary (s : State) : Host.Outcome State Fault Refusal := event (realignmentBoundary s)
/-- `SLEW_DONE`: the slew in progress has reached zero (R72). -/
def slewDone (s : State) : State :=
  if isOn s dTU ∧ s.tu.slewLeft = 0 ∧ s.tu.slewing = true then raise { s with tu := { s.tu with slewing := false } } 49 3 else s
def execSlewDone (s : State) : Host.Outcome State Fault Refusal := event (slewDone s)
/-- `REF_LOSS` and `REF_OK` (R75): the reference-valid indication has been false for 16 TU cycles without a break, or true for 1,024, so that the
one comes no sooner than that after the other. -/
def refLoss (s : State) : State :=
  if isOn s dTU ∧ s.tu.holdover = false ∧ s.tu.refAt + 16 ≤ s.tu.cycles then raise { s with tu := { s.tu with holdover := true, refAt := s.tu.cycles } } 49 0 else s
def execRefLoss (s : State) : Host.Outcome State Fault Refusal := event (refLoss s)
def refOk (s : State) : State :=
  if isOn s dTU ∧ s.tu.holdover = true ∧ s.tu.refAt + 1024 ≤ s.tu.cycles then raise { s with tu := { s.tu with holdover := false, refAt := s.tu.cycles } } 49 1 else s
def execRefOk (s : State) : Host.Outcome State Fault Refusal := event (refOk s)

/-! ### Pulses -/
/-- The quality lets `PPS_OUT` pulse (R101). -/
def ppsAllowed (s : State) : Bool := (ppsInForce s).always || nowQ s == .locked || nowQ s == .holdover
def ppsOutRise (s : State) : State :=
  if isOn s dTU ∧ (ppsInForce s).en = true ∧ s.tu.ppsOut = false ∧ ppsAllowed s = true ∧ s.tu.ppsDue = true then
    raise { s with tu := { s.tu with ppsOut := true, ppsDue := false, ppsRise := s.tm.now, ppsNowWidth := (ppsInForce s).width } } 49 4
  else s
def execPpsOutRise (s : State) : Host.Outcome State Fault Refusal := event (ppsOutRise s)
def ppsOutFall (s : State) : State :=
  if s.tu.ppsOut = true ∧ s.tu.ppsRise + s.tu.ppsNowWidth * 1000 ≤ s.tm.now then { s with tu := { s.tu with ppsOut := false } } else s
def execPpsOutFall (s : State) : Host.Outcome State Fault Refusal := event (ppsOutFall s)
/-- `PPS_IN_CAPTURE`: the TU time of the sampling cycle less 3 ns; edges within 100 µs of the last captured are ignored (R103),
an edge exactly 100 µs after it is not, which the spec leaves open (log 96). -/
def ppsInCapture (s : State) : State :=
  if isOn s dTU ∧ s.tu.ppsInEn = true ∧ (match s.tu.captureAt with | none => true | some t => decide (t + 100000 ≤ s.tm.now)) = true then
    raise { s with tu := { s.tu with capture := nT96 (tuNow s.tu - 3 * 65536), captureAt := some s.tm.now } } 49 5
  else s
def execPpsInCapture (s : State) : Host.Outcome State Fault Refusal := event (ppsInCapture s)
/-- `STARTER_TRIM`: after 1,024 AO cycles the counter stands at the AO clock's time (R486). -/
def starterTrim (s : State) : State :=
  if s.st0.running = true ∧ s.st0.trimAt + 40960 ≤ s.tm.now then
    { s with st0 := starterAt { s.st0 with trimAt := s.st0.trimAt + 40960, trimT := s.st0.trimT + 40960 * 65536 } s.tm.now }
  else s
def execStarterTrim (s : State) : Host.Outcome State Fault Refusal := event (starterTrim s)

/-! ### Readouts -/
def setReg (s : State) (r : Resp) (d : List (BitVec 64)) : State := { s with reg := { resp := r, data := d } }
/-- T96 bits of the present time. -/
def nowBits (s : State) : Nat := t96bits (nowT s)
/-- `TU_NOW_READ`: bits [63:0], and the latch of [95:64] (R104, R500). A read of fewer than 8 bytes changes nothing and returns zero (R495). -/
def tuNowRead (strobe : BitVec 8) (s : State) : State :=
  if s.st0.running || isOn s dTU then
    if strobe ≠ 0xFF then setReg s .served [0]
    else setReg { s with tm := { s.tm with nowHi := BitVec.ofNat 32 (nowBits s / 2 ^ 64) } } .served [BitVec.ofNat 64 (nowBits s)]
  else setReg s .absent [0]
def tuCaptureRead (strobe : BitVec 8) (s : State) : State :=
  if isOn s dTU then
    if strobe ≠ 0xFF then setReg s .served [0]
    else
    let v := t96bits s.tu.capture
    setReg { s with tu := { s.tu with captureHi := BitVec.ofNat 32 (v / 2 ^ 64) } } .served [BitVec.ofNat 64 v]
  else setReg s .absent [0]

def execTuNowRead (strobe : BitVec 8) (s : State) : Host.Outcome State Fault Refusal := event (tuNowRead strobe s)
def execTuPpsCaptureRead (strobe : BitVec 8) (s : State) : Host.Outcome State Fault Refusal := event (tuCaptureRead strobe s)

/-! ### Time-stamp queues -/
def tsqLo (e : TsqEntry) : BitVec 64 :=
  BitVec.ofNat 64 (e.id.toNat + qualCode e.quality * 2 ^ 16 + b2n e.oneStep * 2 ^ 18 + b2n e.preempted * 2 ^ 19
    + b2n e.aborted * 2 ^ 20 + 2 ^ 31 + e.t.ns * 2 ^ 32)
def tsqHiOf (e : TsqEntry) : BitVec 64 := BitVec.ofNat 64 (e.t.frac + e.t.sec * 2 ^ 16)
/-- A read of `TSQ_POP_LO` (R88). -/
def tsqPop (p : Nat) (strobe : BitVec 8) (s : State) : State :=
  if !isOn s (dMS (sliceOf p)) then setReg s .absent [0]
  else if strobe ≠ 0xFF then setReg s .served [0]
  else
    let L := line s p
    match L.tsq with
    | [] => setReg s .served [0]
    | e :: t => setReg (setLine s p { L with tsq := t, tsqHi := tsqHiOf e }) .served [tsqLo e]
def execTsqPop (p : Nat) (strobe : BitVec 8) (s : State) : Host.Outcome State Fault Refusal := event (tsqPop p strobe s)
/-- An entry becomes due (R86, R90, R93). -/
def tsqPush (s : State) (p : Nat) (e : TsqEntry) : State :=
  let L := line s p
  if L.tsq.length ≥ 64 then
    raiseIf (!L.tsqOvf) (cntPort (setLine s p { L with tsqOvf := true }) p 93 1) p 10
  else raiseIf L.tsq.isEmpty (setLine s p { L with tsq := L.tsq ++ [e] }) p 9

end Sys2Proof.Machine
end

