-- ==== Sys2Proof/Machine/LedgerOps.lean ====
section
/-! DEFINITION. The Ledger and the tallies (16): counts, images and flushes (R408 to R416), fuse rows and change records
(R417 to R421), `LEDGER.*` and `TALLY.*` (R328, R329). -/
namespace Sys2Proof.Machine

/-! ### Counts (R413, R414) -/
def ldRec (s : State) (off : Nat) (o : Octets) : State :=
  { s with ld := { s.ld with pend := { s.ld.pend with recs := s.ld.pend.recs ++ [(off, o)] } } }
/-- A frame's margin in the Ledger: a smaller one replaces, an equal one does not (R414). -/
def ldWorst (s : State) (margin : Int) (ct portByte : Nat) (t : T96) : State :=
  let w := match s.ld.pend.worst with
    | some x => if margin < x.1 then some (margin, ct, portByte, t) else some x
    | none => some (margin, ct, portByte, t)
  { s with ld := { s.ld with pend := { s.ld.pend with worst := w } } }
/-- Width in octets of the counter at an offset of the map. -/
def ldWidth (off : Nat) : Nat :=
  if 0x0300 ≤ off ∧ off < 0x0B00 then 4 else if 0x0B40 ≤ off ∧ off < 0x0D40 then 4 else if 0x1000 ≤ off ∧ off < 0x1200 then 2 else 8
/-- Every ON domain gains a nanosecond of POWERED. -/
def powerTick (s : State) (d : Nat) : State :=
  if isOn s d then
    let f := tget 0 s.ld.fraction d + 1
    if f = 1000000000 then ldAdd { s with ld := { s.ld with fraction := tset 0 s.ld.fraction d 0 } } (0x40 + 8 * d) 1
    else { s with ld := { s.ld with fraction := tset 0 s.ld.fraction d f } }
  else s
def powerTicks (s : State) : State := (63 :: List.range 56).foldl powerTick s

/-! ### Images (R408, R413) -/
abbrev Image := Tbl Byte
def imgGet (m : Image) (off n : Nat) : Nat := ofLe ((List.range n).map (fun i => tget 0 m (off + i)))
def imgPut (m : Image) (off n v : Nat) : Image := memWrite m off (le n v)
/-- Octets [lo, hi) of an image. -/
def imgOctets (m : Image) (lo hi : Nat) : Octets := (List.range (hi - lo)).map (fun i => tget 0 m (lo + i))
def imgCrc (m : Image) : Nat := crc32c 0xFFFFFFFF (imgOctets m 0 0x3C ++ imgOctets m 0x40 0x4000)
def slotImage (s : State) (c : Nat) : Image :=
  (s.ld.array.filter (fun e => decide (e.1 / 16384 = c))).map (fun e => (e.1 % 16384, e.2))
def slotValid (s : State) (c : Nat) : Bool :=
  let m := slotImage s c
  !m.isEmpty && !s.ld.bad.toNat.testBit c && imgCrc m == imgGet m 0x3C 4
/-- Slot and image in force: the highest SEQ among the slots whose CRC is correct (R408). -/
def inForce (s : State) : Option (Nat × Image) :=
  (List.range 4).foldl (fun a c =>
    if slotValid s c then
      let m := slotImage s c
      match a with
      | some (b, x) => if imgGet x 8 8 < imgGet m 8 8 then some (c, m) else some (b, x)
      | none => some (c, m)
    else a) none
def forceImage (s : State) : Image := match inForce s with | some (_, m) => m | none => []
/-- The first slot after `c` that is not retired. -/
def nextSlot (retired c : Nat) : Option Nat := ((List.range 4).map (fun i => (c + 1 + i) % 4)).find? (fun i => !retired.testBit i)
def satAdd (n a b : Nat) : Nat := min (2 ^ (8 * n) - 1) (a + b)
/-- Add a pending area to an image. -/
def addPending (m : Image) (p : Pending) : Image :=
  let unsampled := imgGet m 0x240 128 == 0
  let m := p.add.foldl (fun m e => let n := ldWidth e.1; imgPut m e.1 n (satAdd n (imgGet m e.1 n) e.2)) m
  let m := match p.temp with
    | some (t, at_) =>
      if unsampled ∨ sgn 16 (imgGet m 0x2C0 2) < t then imgPut (imgPut m 0x2C0 2 (ofInt 16 t).toNat) 0x2C4 12 (t96bits at_) else m
    | none => m
  let m := match p.worst with
    | some (w, ct, pb, at_) =>
      if w < (if imgGet m 0 4 = 0 then (0x7FFFFFFF : Int) else sgn 32 (imgGet m 0xE40 4)) then
        imgPut (imgPut (imgPut (imgPut m 0xE40 4 (ofInt 32 (max (-(2 ^ 31)) w)).toNat) 0xE44 2 ct) 0xE46 1 pb) 0xE48 12 (t96bits at_)
      else m
    | none => m
  p.recs.foldl (fun m e => memWrite m e.1 e.2) m
/-- The Ledger before any flush, with WORST_MARGIN "none" once it is written. -/
def blankWorst (m : Image) : Image := if imgGet m 0 4 = 0 then imgPut m 0xE40 4 0x7FFFFFFF else m
/-- The image of a flush for `cause` into `slot` (R409, R413, R415). -/
def mkImage (s : State) (carry : Pending) (cause slot retired : Nat) : Image :=
  let base := forceImage s
  let body := if cause = 5 then imgPut ((base.filter (fun e => decide (0x2000 ≤ e.1) || decide (e.1 < 0x40)))) 0xE40 4 0x7FFFFFFF
              else addPending (blankWorst base) carry
  let writes := if slotValid s slot then imgGet (slotImage s slot) 0x20 8 else 0
  let m := imgPut (imgPut (imgPut (imgPut body 0 4 0x53574C44) 4 2 1) 6 1 slot) 7 1 retired
  let m := imgPut (imgPut m 8 8 (imgGet base 8 8 + 1)) 0x10 12 (t96bits (nowT s))
  let m := imgPut (imgPut (imgPut m 0x1C 1 (qualCode (nowQ s))) 0x1D 1 cause) 0x20 8 (writes + 1)
  let m := if cause = 5 then imgPut (imgPut m 0x28 8 (imgGet base 0x28 8 + 1)) 0x30 12 (t96bits (nowT s)) else m
  let m := imgPut m 0x3C 4 0
  imgPut m 0x3C 4 (imgCrc m)
/-- The same image for another slot, with the slots retired by then in its header (R411). -/
def reslot (s : State) (m : Image) (slot retired : Nat) : Image :=
  let writes := if slotValid s slot then imgGet (slotImage s slot) 0x20 8 else 0
  let m := imgPut (imgPut (imgPut m 6 1 slot) 7 1 retired) 0x20 8 (writes + 1)
  let m := imgPut m 0x3C 4 0
  imgPut m 0x3C 4 (imgCrc m)
/-- The slots retired: as the image in force says, or all of them (R411). -/
def retiredOf (s : State) : Nat := if s.ld.worn then 15 else imgGet (forceImage s) 7 1
/-- A skipped flush of R410. -/
def tooSoon (s : State) (cause : Nat) : Bool :=
  (cause == 1 || cause == 2) && (match s.ld.lastEnd with | some t => decide (s.tm.now < t + 1000000000) | none => false)
/-- Start a flush, or make it wait for the one that runs (R409 to R411). -/
def flushFor (s : State) (cause : Nat) : State :=
  if s.ld.flush.isSome then { s with ld := { s.ld with due := s.ld.due ++ [cause] } }
  else if tooSoon s cause then s
  else match nextSlot (retiredOf s) (match inForce s with | some (c, _) => c | none => 3) with
    | none => raise s 61 1
    | some slot =>
      let carry : Pending := if cause = 5 then {} else s.ld.pend
      { s with ld := { s.ld with pend := {}, carry := carry, flush := some { cause := cause, slot := slot, image := mkImage s carry cause slot (retiredOf s) } } }
/-- Put an image into its slot of the array. -/
def storeSlot (s : State) (slot : Nat) (m : Image) : State :=
  let arr := tclear (16384 * slot) 16384 s.ld.array
  { s with ld := { s.ld with array := m.foldl (fun a e => memPut a (16384 * slot + e.1) e.2) arr } }
def mergePending (a b : Pending) : Pending :=
  { add := b.add.foldl (fun t e => tset 0 t e.1 (tget 0 t e.1 + e.2)) a.add
    temp := match a.temp, b.temp with | some x, some y => if x.1 < y.1 then some y else some x | some x, none => some x | none, y => y
    worst := match a.worst, b.worst with | some x, some y => if y.1 < x.1 then some y else some x | some x, none => some x | none, y => y
    recs := a.recs ++ b.recs }
/-- The next flush that waits, if any, starts; those that are not made are passed over. -/
def startDue : List Nat → State → State
  | [], s => { s with ld := { s.ld with due := [] } }
  | c :: t, s =>
    let s := flushFor s c
    if s.ld.flush.isSome then { s with ld := { s.ld with due := t } } else startDue t s
def nextDue (s : State) : State := startDue s.ld.due s
/-- `LEDGER_FLUSH_DONE`: the read-back's outcome (R409, R411, R422). -/
def ledgerFlushDone (ok : Bool) (s : State) : State :=
  match s.ld.flush with
  | none => s
  | some f =>
    if isOn s dLD = false then s
    else if ok then
      let s := storeSlot s f.slot f.image
      let s := { s with ld := { s.ld with flush := none, carry := {}, lastEnd := some s.tm.now, bad := setBitAt s.ld.bad f.slot false } }
      nextDue (raise s 61 0)
    else
      let arr := memWriteFree s.tm.free s.ld.array (16384 * f.slot) (imgOctets f.image 0 16384)
      let s := { s with ld := { s.ld with array := arr, bad := setBitAt s.ld.bad f.slot true }, tm := { s.tm with free := s.tm.free + 1 } }
      if f.attempt = 0 then { s with ld := { s.ld with flush := some { f with attempt := 1 } } }
      else
        let retired := Nat.lor (imgGet f.image 7 1) (2 ^ f.slot)
        let s := raise s 61 1
        match nextSlot retired f.slot with
        | some slot => { s with ld := { s.ld with flush := some { cause := f.cause, slot := slot, image := reslot s f.image slot retired } } }
        | none => nextDue { s with ld := { s.ld with flush := none, pend := mergePending s.ld.carry s.ld.pend, carry := {}, lastEnd := some s.tm.now, worn := true } }
def execLedgerFlushDone (ok : Bool) (s : State) : Host.Outcome State Fault Refusal := event (ledgerFlushDone ok s)
/-- `LEDGER_INTERVAL_FLUSH`: the interval has passed since the end of the last flush (R410), or, with every slot retired, since the last such
event. -/
def ledgerIntervalFlush (s : State) : State :=
  if s.pw.edge = .live ∧ s.ld.due.contains 0 = false ∧ (match s.ld.flush with | some f => f.cause != 0 | none => true) = true ∧
      max s.ld.wornAt (match s.ld.lastEnd with | some t => t | none => s.pw.resetAt) + s.ld.interval * 60000000000 ≤ s.tm.now then
    flushFor (if retiredOf s % 16 = 15 then { s with ld := { s.ld with wornAt := s.tm.now } } else s) 0
  else s
def execLedgerIntervalFlush (s : State) : Host.Outcome State Fault Refusal := event (ledgerIntervalFlush s)
/-- Bin of a junction temperature (R413). -/
def tempBin (t : Int) : Nat := if t < -20 then 0 else if 120 ≤ t then 15 else ((t + 30) / 10).toNat
/-- Bin of a second's corrected symbols (R414). -/
def fecBin (n : Nat) : Nat := if n = 0 then 0 else min 15 (Nat.log2 n + 1)
/-- The lane carries a port that is up. -/
def laneUp (s : State) (l : Nat) : Bool :=
  (List.range 32).any (fun p => match pdef s p with | some d => decide (p ≤ l) && decide (l < p + min 8 (curWidth s p d)) && (line s p).up | none => false)
/-- `LEDGER_SECOND_SAMPLE`: temperature (none while `TJ_VALID` is 0) and each lane's corrected symbols (R414, R467). -/
def ledgerSecondSample (temp : Option Int) (fec : List Nat) (s : State) : State :=
  if s.pw.edge = .reset then s else
  let s := match temp with
    | some t =>
      let s := ldAdd s (0x240 + 8 * tempBin t) 1
      let keep := match s.ld.pend.temp with | some (m, _) => decide (t ≤ m) | none => false
      if keep then s else { s with ld := { s.ld with pend := { s.ld.pend with temp := some (t, nowT s) } } }
    | none => s
  (List.range 32).foldl (fun s l => if laneUp s l then ldAdd s (0x300 + 64 * l + 4 * fecBin ((fec[l]?).getD 0)) 1 else s) s
def execLedgerSecondSample (temp : Option Int) (fec : List Nat) (s : State) : Host.Outcome State Fault Refusal := event (ledgerSecondSample temp fec s)

/-! ### `LEDGER.READ` and `LEDGER.FLUSH` -/
def useLedgerRead (_ : Cmd) : List (Nat × Nat × Nat) := [(8, 0, 64), (16, 0, 8), (18, 0, 16), (20, 0, 32)]
/-- `LEDGER.READ`: 4 KiB a step, none while a flush runs (R328, R416). -/
def bodyLedgerRead (j : JEntry) (s : State) : StepRes :=
  let c := j.cmd
  let off := fld c 18 0 16
  let len := fld c 20 0 32
  let done := j.progress.toNat
  let n := min 4096 (len - done)
  let o := if j.stage = 1 then unpacked j.scratch else (List.range n).map (fun i => tget 0 s.ld.array (off + done + i))
  let piece := withWrite j (fld c 8 0 64 + done) o 1 (packed o) s (fun s =>
    if done + n = len then stop sDONE s else .wait s .ready 2 (BitVec.ofNat 64 (done + n)) [])
  let go := if s.ld.flush.isSome then .wait s .flushEnd 2 j.progress [] else piece
  if j.stage = 1 then piece
  else if j.stage = 2 then go
  else guarded [(off % 8 != 0 || len % 8 != 0 || decide (65536 < off + len), sBAD_OPERAND),
    (!bufOk s c (fld c 8 0 64) (fld c 16 0 8) len, sBAD_OPERAND)] s go
def execLedgerRead (c : Cmd) (s : State) : Host.Outcome State Fault Refusal := instr 0x90 useLedgerRead bodyLedgerRead c s
def useLedgerFlush (c : Cmd) : List (Nat × Nat × Nat) := if c.sub = 1 then [(8, 0, 8)] else []
def bodyLedgerFlush (j : JEntry) (s : State) : StepRes :=
  let c := j.cmd
  if c.sub = 1 then
    guarded [(fld c 8 0 8 == 0 || decide (60 < fld c 8 0 8), sBAD_OPERAND)] s (stop sDONE { s with ld := { s.ld with interval := fld c 8 0 8 } })
  else if c.sub = 2 ∧ j.stage = 0 ∧ tally s 12 = 1 then stop sPRIVILEGE s
  else if s.ld.flush.isSome then .wait s .flushEnd j.stage 0 []
  else if j.stage = 1 then stop sDONE s
  else if c.sub = 0 ∧ tooSoon s 1 = true then stop sDONE_NOTE s
  else
    let s := flushFor s (if c.sub = 2 then 5 else 1)
    if s.ld.flush.isSome then .wait s .flushEnd 1 0 [] else stop sDONE s
def execLedgerFlush (c : Cmd) (s : State) : Host.Outcome State Fault Refusal := instr 0x91 useLedgerFlush bodyLedgerFlush c s
def execLedgerFlushIntervalSet (c : Cmd) (s : State) : Host.Outcome State Fault Refusal := instr 0x91 useLedgerFlush bodyLedgerFlush { c with sub := 1 } s
def execLedgerClear (c : Cmd) (s : State) : Host.Outcome State Fault Refusal := instr 0x91 useLedgerFlush bodyLedgerFlush { c with sub := 2 } s

/-! ### Tallies -/
def tallyWidth (t : Nat) : Nat := if t < 8 then 3 else if t = 8 then 6 else if t = 10 then 5 else 1
/-- Fastest mode a lane-rate ceiling allows, in the order of LANE_MODE; 5 allows no port (R417). -/
def modeNum : LaneMode → Nat
  | .l224 => 0 | .l112 => 1 | .l56 => 2 | .l25 => 3 | .l10 => 4
def definedPorts (s : State) : List Nat := (List.range 32).filter (fun p => (pdef s p).isSome)
/-- `BAD_OPERAND` of R329 and R417. -/
def tallyBad (t v : Nat) : Bool := decide (13 ≤ t) || decide (2 ^ tallyWidth t ≤ v) || (decide (t < 8) && decide (5 < v)) || (t == 8 && decide (32 < v))
/-- `BUSY` of R417. -/
def tallyBusy (s : State) (t v : Nat) : Bool :=
  if t < 8 then (definedPorts s).any (fun p => match pdef s p with
    | some d => (lgOf p d.width).contains t && (v == 5 || decide (modeNum d.mode < v)) | none => false)
  else if t = 8 then v != 0 && decide (v < (definedPorts s).length)
  else if t = 10 then s.stk.st != .none
  else if t = 9 then v == 0 && s.stk.st == .distaff
  else false
/-- Change record of a burnt row (R420). -/
def tallyRecord (s : State) (t row ring v tag : Nat) (checkOk : Bool) : Octets :=
  le 1 t ++ le 1 row ++ le 1 (ring + b2n checkOk * 16) ++ le 1 (qualCode (nowQ s)) ++ le 7 v ++ le 1 (instanceId s) ++ le 12 (t96bits (nowT s)) ++ le 2 tag ++ le 6 0
/-- Burn a row. What a row holds that fails its read-back is open, but for its check, which is not correct (R418). -/
def burnRow (s : State) (c : Cmd) (t row v : Nat) (ok : Bool) : State :=
  let (w, s) := if ok then (BitVec.ofNat 64 (v + crc8 (le 7 v) * 2 ^ 56), s) else freeWord s
  let w := if !ok && crc8 (le 7 w.toNat) == w.toNat / 2 ^ 56 then w ^^^ 72057594037927936 else w
  let r := tallyRecord s t row c.ring v c.tag.toNat ok
  let s := { s with ld := { s.ld with fuse := tset 0 s.ld.fuse (8 * t + row) w, tried := tset 0 s.ld.tried t (setBitAt (tget 0 s.ld.tried t) row true) } }
  raise (ldRec s (0x2000 + 32 * (8 * t + row)) r) 61 2
/-- Rows used count every row attempted. -/
def tallyRefuse (s : State) (st : BitVec 8) : StepRes := stop st (raise (ldAdd s 0xE68 1) 61 3)
def useTallyWrite (_ : Cmd) : List (Nat × Nat × Nat) := [(8, 0, 56)]
def bodyTallyWrite (j : JEntry) (s : State) : StepRes :=
  let c := j.cmd
  let t := objNum c
  let v := fld c 8 0 56
  let used := burnt s t
  match j.scratch with
  | [st, res] => if s.ld.flush.isSome then .wait s .flushEnd 1 0 [st, res] else .done (BitVec.ofNat 8 st) (BitVec.ofNat 64 res) s
  | _ =>
    if tallyBad t v then stop sBAD_OPERAND s
    else if used ≥ 8 then tallyRefuse s sTALLY_EXHAUSTED
    else if tally s t = v then stop sDONE_NOTE s
    else if tallyBusy s t v then tallyRefuse s sBUSY
    else
      let bad := min c.fuseBad (8 - used)
      let s := (List.range bad).foldl (fun s i => burnRow s c t (used + i) v false) s
      if used + bad = 8 then
        .wait (flushFor (raise (ldAdd s 0xE68 1) 61 3) 4) .flushEnd 1 0 [sTALLY_EXHAUSTED.toNat, 0]
      else
        let s := burnRow s c t (used + bad) v true
        .wait (flushFor s 4) .flushEnd 1 0 [0, used + bad + (8 - (used + bad + 1)) * 2 ^ 8]
def execTallyWrite (c : Cmd) (s : State) : Host.Outcome State Fault Refusal := instr 0x92 useTallyWrite bodyTallyWrite c s
/-- `TALLY.READ`: value in force and rows used (R329). -/
def bodyTallyRead (j : JEntry) (s : State) : StepRes :=
  .done sDONE (BitVec.ofNat 64 (tally s (objNum j.cmd) + burnt s (objNum j.cmd) * 2 ^ 56)) s
def execTallyRead (c : Cmd) (s : State) : Host.Outcome State Fault Refusal := instr 0x93 useNone bodyTallyRead c s
/-- When LD powers up, every burnt row without a record gets one, and a flush for cause 4 follows (R421). -/
def reconcile (s : State) : State :=
  let m := forceImage s
  let rows := (List.range 256).filter (fun i => tget 0 s.ld.fuse i != 0 && imgGet m (0x2000 + 32 * i) 32 == 0)
  if rows.isEmpty then s
  else
    let s := rows.foldl (fun s i =>
      let v := tget 0 s.ld.fuse i
      ldRec s (0x2000 + 32 * i) (le 1 (i / 8) ++ le 1 (i % 8) ++ le 1 (8 + b2n (rowOk v) * 16) ++ le 1 2 ++ le 7 v.toNat ++ le 1 (instanceId s) ++ le 20 0)) s
    flushFor s 4

end Sys2Proof.Machine
end

