-- ==== Sys2Proof/Machine/IrqOps.lean ====
section
/-! DEFINITION. The interrupt controller (13): `IRQ.*`, `FILTER.SET` (R333), gates (R357), claims and ends (R359 to R361),
sideband inputs (R363), sleep votes (R365) and the T4 claim (R355). -/
namespace Sys2Proof.Machine

def useIrqRoute (_ : Cmd) : List (Nat × Nat × Nat) := [(8, 0, 4), (9, 0, 5)]
/-- `IRQ.ROUTE`; T4 of G59 and G62 does not depend on it (R355). -/
def bodyIrqRoute (j : JEntry) (s : State) : StepRes :=
  let g := objNum j.cmd
  stop sDONE (setGrp s g { grp s g with prio := BitVec.ofNat 4 (fld j.cmd 8 0 4), targets := BitVec.ofNat 5 (fld j.cmd 9 0 5) })
def execIrqRoute (c : Cmd) (s : State) : Host.Outcome State Fault Refusal := instr 0xC0 useIrqRoute bodyIrqRoute c s
def useIrqModerate (_ : Cmd) : List (Nat × Nat × Nat) := [(8, 0, 16)]
def bodyIrqModerate (j : JEntry) (s : State) : StepRes :=
  let g := objNum j.cmd
  stop sDONE (setGrp s g { grp s g with holdoff := BitVec.ofNat 16 (fld j.cmd 8 0 16) })
def execIrqModerate (c : Cmd) (s : State) : Host.Outcome State Fault Refusal := instr 0xC1 useIrqModerate bodyIrqModerate c s
def useIrqWake (_ : Cmd) : List (Nat × Nat × Nat) := [(8, 0, 1)]
def wakeGroups (s : State) : Nat := (s.ic.group.filter (fun e => e.2.wake)).length
/-- `IRQ.WAKE`: at most 16 groups are wake-capable (R333, R354). -/
def bodyIrqWake (j : JEntry) (s : State) : StepRes :=
  let g := objNum j.cmd
  guarded [(fbit j.cmd 8 0 && !(grp s g).wake && decide (16 ≤ wakeGroups s), sNO_ROOM)] s
    (stop sDONE (setGrp s g { grp s g with wake := fbit j.cmd 8 0 }))
def execIrqWake (c : Cmd) (s : State) : Host.Outcome State Fault Refusal := instr 0xC2 useIrqWake bodyIrqWake c s
def useFilterSet (_ : Cmd) : List (Nat × Nat × Nat) := [(8, 0, 8), (9, 0, 1)]
/-- `FILTER.SET`: a disabled filter holds its level low, and it starts from low (R363). -/
def bodyFilterSet (j : JEntry) (s : State) : StepRes :=
  let n := j.cmd.sub.toNat
  guarded [(fld j.cmd 8 0 8 == 0, sBAD_OPERAND)] s
    (stop sDONE (setFlt s n { len := BitVec.ofNat 8 (fld j.cmd 8 0 8), en := fbit j.cmd 9 0
                              level := fbit j.cmd 9 0 && (flt s n).en && (flt s n).level
                              since := if (flt s n).en then (flt s n).since else s.tm.now }))
def execFilterSet (c : Cmd) (s : State) : Host.Outcome State Fault Refusal := instr 0xC3 useFilterSet bodyFilterSet c s

/-! ### Presentation, claims, ends -/
/-- Running priority, one more than the highest in service, 0 for none (R360). -/
def running (T : IrqTarget) : Nat := T.service.foldl (fun a e => max a (e.2 + 1)) 0
/-- Source (g, n) is presentable to target `t` (R357), by the gates that the last AO cycle left (R359). -/
def presentable (s : State) (t g n : Nat) : Bool :=
  let G := grp s g
  let T := tgt s t
  G.pend.toNat.testBit n && G.en.toNat.testBit n && G.targets.toNat.testBit t && gateSeen s G
    && !T.service.any (fun e => e.1 == 32 * g + n) && decide (running T ≤ G.prio.toNat)
/-- The presentable source of highest priority, lowest id among equals (R359). -/
def topSource (s : State) (t : Nat) : Option (Nat × Nat) :=
  (s.ic.group.map Prod.fst).foldl (fun a g =>
    (List.range 32).foldl (fun a n =>
      if presentable s t g n then
        match a with
        | some (src, p) => if p < (grp s g).prio.toNat then some (32 * g + n, (grp s g).prio.toNat) else some (src, p)
        | none => some (32 * g + n, (grp s g).prio.toNat)
      else a) a) none
/-- Access to a register of AON (R461). -/
def aonOpen (s : State) : Bool := portOpen s
/-- `CLAIM`: a read of `IC_CLAIM_n` (R359). A read of fewer than 8 bytes changes nothing and returns zero (R362). -/
def claim (t : Nat) (strobe : BitVec 8) (s : State) : State :=
  if !aonOpen s then setReg s .absent [0]
  else if strobe ≠ 0xFF then setReg s .served [0]
  else match topSource s t with
    | none => setReg s .served [0x7FF]
    | some (src, p) =>
      let G := grp s (src / 32)
      let s := setGrp s (src / 32) { G with pend := setBitAt G.pend (src % 32) false }
      let s := setTgt s t { tgt s t with service := (src, p) :: (tgt s t).service }
      setReg s .served [BitVec.ofNat 64 (src + p * 2 ^ 11)]
def execClaim (t : Nat) (strobe : BitVec 8) (s : State) : Host.Outcome State Fault Refusal := event (claim t strobe s)
/-- `END_OF_INTERRUPT`: a write of `IC_EOI_n` (R361). -/
def endOfInterrupt (t : Nat) (src : BitVec 11) (strobe : BitVec 8) (s : State) : State :=
  if !aonOpen s then setReg s .absent []
  else if strobe ≠ 0xFF then setReg s .served []
  else
    let T := tgt s t
    let s := setReg s .served []
    if src.toNat = 0x7FF then s
    else if T.service.any (fun e => e.1 == src.toNat) then setTgt s t { T with service := T.service.filter (fun e => e.1 != src.toNat) }
    else setTgt s t { T with eoiErr := true }
def execEndOfInterrupt (t : Nat) (src : BitVec 11) (strobe : BitVec 8) (s : State) : Host.Outcome State Fault Refusal :=
  event (endOfInterrupt t src strobe s)

/-- A group that holds host `t`'s sleep vote: not wake-capable, routed to it, with a pending enabled source (R365). -/
def holdsSleep (s : State) (t g : Nat) : Bool :=
  let G := grp s g
  !G.wake && G.targets.toNat.testBit t && (G.pend &&& G.en != 0)
def sleepHolders (s : State) (t : Nat) : List Nat := (s.ic.group.map Prod.fst).filter (holdsSleep s t)
/-- A held sleep vote opens the gate whatever the counter holds (R365). -/
def forcedOpen (s : State) (g : Nat) : Bool := (List.range 4).any (fun t => (tgt s t).sleepHeld && holdsSleep s t g)
/-- `GATE_OPEN` (R357, R365), in step 4, which ends an AO cycle (R356). -/
def gateOpen (g : Nat) (s : State) : State :=
  let G := grp s g
  if aoEnd s && !G.gateOpen && (G.pend &&& G.en != 0) && (decide (holdK G ≤ holdCount s G) || forcedOpen s g) then
    setGrp s g { G with gateOpen := true, lastOpen := some s.tm.now }
  else s
def execGateOpen (g : Nat) (s : State) : Host.Outcome State Fault Refusal := event (gateOpen g s)
/-- `EVT_IN_ACCEPTED`: the filter accepts a level that its last N samples, one in each AO cycle, have held; a rise raises its event and may
wake the block (R363, R382). -/
def evtInAccepted (n : Nat) (level : Bool) (s : State) : State :=
  let f := flt s n
  if f.en && (f.level != level) && aonOpen s && decide (aoCycle f.since + f.len.toNat ≤ aoCycle s.tm.now) then
    let s := setFlt s n { f with level := level, since := s.tm.now }
    if level then
      let s := raise s 63 n
      if s.pw.evtMask.toNat.testBit n then wakeEvent s 3 n else s
    else s
  else s
def execEvtInAccepted (n : Nat) (level : Bool) (s : State) : Host.Outcome State Fault Refusal := event (evtInAccepted n level s)
/-- `SLEEP_VOTE_GRANTED` of host `t`, in step 4 of an AO cycle (R365). -/
def sleepVoteGranted (t : Nat) (s : State) : State :=
  if aoEnd s && (tgt s t).sleepHeld && (sleepHolders s t).isEmpty then setTgt s t { tgt s t with sleepHeld := false, sleepGranted := true } else s
def execSleepVoteGranted (t : Nat) (s : State) : Host.Outcome State Fault Refusal := event (sleepVoteGranted t s)

/-! ### T4 (R355) -/
/-- `T4_PENDING_CLEAR`: the claimed source's T4 bit clears, and its routine may start. The clear has taken effect for the next claim. -/
def t4PendingClear (s : State) : State :=
  match s.sq.t4Claim with
  | none => s
  | some src =>
    let G := grp s (src / 32)
    let s := setGrp s (src / 32) { G with t4 := setBitAt G.t4 (src % 32) false, t4Seen := setBitAt G.t4Seen (src % 32) false }
    queueTask { s with sq := { s.sq with t4Claim := none } } 0x1000 src .ready
def execT4PendingClear (s : State) : Host.Outcome State Fault Refusal := event (t4PendingClear s)

/-- A cold or block reset's effect on the controller (R366). -/
def irqReset (s : State) : State := { s with ic := { serial := s.ic.serial, lastRaise := s.ic.lastRaise } }

end Sys2Proof.Machine
end

