-- ==== Sys2Proof/Machine/CheckOps.lean ====
section
/-! DEFINITION. The check engine (15): `CHECK.SET` (R326), `CHECK.RUN` (R327, R395 to R400) and the end of a run (R401, R402). -/
namespace Sys2Proof.Machine

def useCheckSet (c : Cmd) : List (Nat × Nat × Nat) :=
  if c.sub = 0 then [(8, 0, 64), (16, 0, 64), (24, 0, 8), (25, 0, 2)]
  else if c.sub = 1 then [(8, 0, 64), (16, 0, 64), (24, 0, 1)]
  else [(8, 0, 64), (16, 0, 8), (18, 0, 16)]
/-- The channel runs, a known-answer test included (R404, R407). -/
def chanBusy (s : State) (n : Nat) : Bool := (chan s n).run.isSome || s.ck.extra.toNat.testBit n
def bodyCheckSet (j : JEntry) (s : State) : StepRes :=
  let c := j.cmd
  let n := objNum c
  let C := chan s n
  let a := fld c 8 0 64
  let b := fld c 16 0 64
  if c.sub = 0 then
    let w := fld c 24 0 8
    guarded [(decide (62 ≤ n), sBAD_OPERAND), (w == 0 || decide (64 < w), sBAD_OPERAND), (decide (2 ^ w ≤ a) || decide (2 ^ w ≤ b), sBAD_OPERAND),
      (decide (2 ^ w ≤ C.xorout.toNat) || decide (2 ^ w ≤ C.expected.toNat), sBAD_OPERAND), (chanBusy s n, sBUSY)] s
      (stop sDONE (setChan s n { C with width := w, poly := BitVec.ofNat 64 a, init := BitVec.ofNat 64 b, refin := fbit c 25 0, refout := fbit c 25 1 }))
  else if c.sub = 1 then
    guarded [(decide (62 ≤ n), sBAD_OPERAND), (decide (2 ^ C.width ≤ a) || decide (2 ^ C.width ≤ b), sBAD_OPERAND), (chanBusy s n, sBUSY)] s
      (stop sDONE (setChan s n { C with xorout := BitVec.ofNat 64 a, expected := BitVec.ofNat 64 b, compare := fbit c 24 0 }))
  else
    let cnt := fld c 18 0 16
    guarded [(decide (62 ≤ n), sBAD_OPERAND), (cnt == 0 || decide (4096 < cnt), sBAD_OPERAND),
      (a % 16 != 0 || !bufOk s c a (fld c 16 0 8) (16 * cnt), sBAD_OPERAND), (chanBusy s n, sBUSY)] s
      (stop sDONE (setChan s n { C with addr := BitVec.ofNat 64 a, window := fld c 16 0 8, count := cnt }))
def execCheckSet (c : Cmd) (s : State) : Host.Outcome State Fault Refusal := instr 0x80 useCheckSet bodyCheckSet c s

/-- Entry `i` of a source list (R395): address, length, window, and whether a reserved bit is set. -/
def listEntry (o : Octets) (i : Nat) : Nat × Nat × Nat × Bool :=
  let v := ofLe ((o.drop (16 * i)).take 16)
  (bits v 0 56, bits v 64 32, bits v 96 6, bits v 56 8 != 0 || bits v 102 26 != 0)
def listBad (s : State) (o : Octets) (n : Nat) : Bool :=
  n == 0 || (List.range n).any (fun i => let (a, l, w, r) := listEntry o i; r || l == 0 || !inWindow s w a l) ||
  decide (2 ^ 32 - 1 < (List.range n).foldl (fun a i => a + (listEntry o i).2.1) 0)
def useCheckRun (_ : Cmd) : List (Nat × Nat × Nat) := [(8, 0, 1)]
/-- A run without NO_WAIT: one step for every 32 KiB that the channel processes of its `total` octets, then the record (R327, R400, R402). -/
def checkStep (j : JEntry) (n total : Nat) (s : State) : StepRes :=
  let C := chan s n
  let next := j.progress.toNat + 32768
  if C.run.isSome ∨ next ≤ (if C.fabricErr then C.bytes else total) then .wait s (.checkEnd n) 1 (BitVec.ofNat 64 next) [total]
  else .done (if C.outcome = 3 then sDONE_NOTE else sDONE) C.result s
/-- `CHECK.RUN`: the list is read whole, then the channel starts (R397, R400). -/
def bodyCheckRun (j : JEntry) (s : State) : StepRes :=
  let c := j.cmd
  let n := objNum c
  let C := chan s n
  let start := withRead j (16 * C.count) 2 s (fun r => match r with
    | none => stop sBAD_OPERAND s
    | some o =>
      if listBad s o C.count then stop sBAD_OPERAND s
      else
        let segs := (List.range C.count).map (fun i => let (a, l, _, _) := listEntry o i; (a, l))
        let total := segs.foldl (fun a e => a + e.2) 0
        let s := setChan s n { C with outcome := 1, run := some { segs := segs, noWait := fbit c 8 0, total := total } }
        if fbit c 8 0 then stop sDEFERRED s else .wait s (.checkEnd n) 1 0 [total])
  if j.stage = 1 then checkStep j n (j.scratch.headD 0) s
  else if j.stage = 2 then start
  else guarded [(decide (62 ≤ n), sBAD_OPERAND), (C.count == 0, sBAD_OPERAND), (chanBusy s n, sBUSY), (!bufOk s c C.addr.toNat C.window (16 * C.count), sBAD_OPERAND)] s start
def execCheckRun (c : Cmd) (s : State) : Host.Outcome State Fault Refusal := instr 0x81 useCheckRun bodyCheckRun c s
/-- Result of a channel over octets (R394). -/
def chanCrc (C : Channel) (o : Octets) : Nat := crc C.width C.poly.toNat C.init.toNat C.refin C.refout C.xorout.toNat o
/-- `CHECK_RUN_END`: the octets the engine has read; an ERROR after them ends the run with outcome 3 (R401, R402, R404, R405). -/
def checkRunEnd (n : Nat) (reply : FabReply) (s : State) : State :=
  let C := chan s n
  match C.run with
  | none => s
  | some r =>
    let o := reply.data.take r.total
    let res := BitVec.ofNat 64 (chanCrc C o)
    let out := if reply.error then 3 else if C.compare then (if res = C.expected then 2 else 3) else 4
    let s := setChan s n { C with run := none, result := res, outcome := out, fabricErr := reply.error, bytes := if reply.error then o.length else 0 }
    let s := { s with ck := { s.ck with done := setBitAt s.ck.done n true, mismatch := if out = 3 then setBitAt s.ck.mismatch n true else s.ck.mismatch } }
    raiseIf (out == 3) (raise s 60 1) 60 0
/-- Only a run whose octets are all here, or that an error cut short, ends. -/
def execCheckRunEnd (n : Nat) (reply : FabReply) (s : State) : Host.Outcome State Fault Refusal :=
  event (if chansRun s && (reply.error || (match (chan s n).run with | some r => decide (r.total ≤ reply.data.length) | none => false)) then checkRunEnd n reply s else s)

end Sys2Proof.Machine
end

