-- ==== Sys2Proof/Machine/Parse.lean ====
section
/-! DEFINITION. Tags, the layer-3 base, templates, the key, checksums, rules and the hash (R127 to R154), as functions of a frame. -/
namespace Sys2Proof.Machine

/-! ### Tags and the layer-3 base (R128) -/
/-- The VLAN set of a port: C-tag, S-tag and its custom TPID. -/
def vlanSet (s : State) (p : Nat) : List Nat := [0x8100, 0x88A8, (pset s p).rx.custom.toNat]
/-- Skip VLAN tags from `pos` until `depth` is 3 or another EtherType stands. -/
def skipTags (vs : List Nat) (o : Octets) : Nat → Nat → Nat → Nat × Nat
  | 0, pos, depth => (pos, depth)
  | n + 1, pos, depth => if depth < 3 && vs.contains (octBe o pos 2) then skipTags vs o n (pos + 4) (depth + 1) else (pos, depth)
/-- The position past any VLAN tags that stand at `pos`, `n` at most (R110). -/
def skipVlan (vs : List Nat) (o : Octets) : Nat → Nat → Nat
  | 0, pos => pos
  | n + 1, pos => if vs.contains (octBe o pos 2) && decide (pos + 4 ≤ o.length) then skipVlan vs o n (pos + 4) else pos
/-- What R128 finds. -/
structure L3 where
  etype : Nat
  base : Nat
  depth : Nat
  tagDepth : Bool
deriving DecidableEq, Repr
/-- R128; `kinds` holds the EtherTypes of redundancy tags that stand in the frame. -/
def findL3 (vs kinds : List Nat) (removed : Nat) (o : Octets) : L3 :=
  let (pos, depth) := skipTags vs o 3 12 removed
  let deep := vs.contains (octBe o pos 2)
  let pos := if !deep && kinds.contains (octBe o pos 2) then pos + 6 else pos
  { etype := octBe o pos 2, base := pos + 2, depth := depth, tagDepth := deep }
/-- Redundancy tags that a port of RX_KIND leaves in place. -/
def redKinds (rxKind : Nat) : List Nat := if rxKind = 1 then [0xF1C1] else if rxKind = 2 then [0x892F] else []

/-! ### Templates (R130) -/
abbrev Template := BitVec 512
def tField (t : Template) (f : Nat) : Nat := bits t.toNat (24 * f) 24
def tByte (t : Template) (b : Nat) : Nat := bits t.toNat (8 * b) 8
def fValid (v : Nat) : Bool := bit v 0
def fOff (v : Nat) : Nat := bits v 2 8
def fSize (v : Nat) : Nat := bits v 10 4 + 1
def fDest (v : Nat) : Nat := bits v 14 6
def tValid (t : Template) : Bool := bit t.toNat 408
def tAny (t : Template) : Bool := bit t.toNat 409
def tEtype (t : Template) : Nat := bits t.toNat 384 16
def tProfiles (t : Template) : Nat := tByte t 50
def tL3 (t : Template) : Nat := bits t.toNat 416 2
def tL4 (t : Template) : Nat := bits t.toNat 418 2
/-- Hash field `i`: index and USE. -/
def tHash (t : Template) (i : Nat) : Nat × Bool := (bits t.toNat (8 * (56 + i)) 4, bit t.toNat (8 * (56 + i) + 4))
def template (s : State) (k t : Nat) : Template := tget 0 s.pc.tmpl (64 * k + t)
/-- The image keeps every constraint of R130. -/
def templateOk (t : Template) : Bool :=
  let fs := (List.range 16).map (tField t)
  let used := (List.range 5).map (tHash t)
  let fld := fun i => tField t (tHash t i).1
  let use := fun i => (tHash t i).2
  fs.all (fun v => bits v 20 4 == 0) && fs.all (fun v => !fValid v || decide (fDest v + fSize v ≤ 48)) &&
  (List.range 16).all (fun a => (List.range a).all (fun b =>
    let x := tField t a; let y := tField t b
    !(fValid x && fValid y) || decide (fDest x + fSize x ≤ fDest y) || decide (fDest y + fSize y ≤ fDest x))) &&
  tByte t 51 < 4 && tByte t 52 < 16 && tL3 t != 3 && (tL4 t == 0 || (tL3 t != 0 && decide (tByte t 53 < tByte t 54))) &&
  tByte t 55 == 0 && tByte t 61 == 0 && tByte t 62 == 0 && tByte t 63 == 0 &&
  (List.range 5).all (fun i => decide (tByte t (56 + i) < 32)) &&
  used.all (fun u => !u.2 || fValid (tField t u.1)) &&
  use 0 == use 1 && (!use 0 || fSize (fld 0) == fSize (fld 1)) &&
  use 2 == use 3 && (!use 2 || (fSize (fld 2) == 2 && fSize (fld 3) == 2))
/-- R131. -/
def selectTemplate (s : State) (k prof etype : Nat) : Option Nat :=
  (List.range 64).find? (fun i => let t := template s k i
    tValid t && (tProfiles t).testBit prof && (tAny t || tEtype t == etype))
/-- Octet `j` of field `v`, and whether it lies outside the window (R133). -/
def fieldOct (o : Octets) (base v j : Nat) : Nat × Bool :=
  let p := (if bit v 1 then base else 0) + fOff v + j
  if p < 256 && p < o.length then (oct o p, false) else (0, true)
/-- Key bytes 0 to 47 and `WINDOW_EXCEEDED` (R133). -/
def extract (t : Template) (base : Nat) (o : Octets) : Nat × Bool :=
  (List.range 16).foldl (fun a f =>
    let v := tField t f
    if fValid v then
      (List.range (fSize v)).foldl (fun a j => let x := fieldOct o base v j
        (Nat.lor a.1 (x.1 <<< (8 * (fDest v + j))), a.2 || x.2)) a
    else a) (0, false)

/-! ### Checksums (R136 to R139) -/
/-- Sum of 16-bit words, most significant octet first, an odd octet padded with zero. -/
def sum16 : Octets → Nat
  | [] => 0
  | [a] => a.toNat * 256
  | a :: b :: t => a.toNat * 256 + b.toNat + sum16 t
def foldCarry (n : Nat) : Nat := let n := n / 65536 + n % 65536; let n := n / 65536 + n % 65536; n / 65536 + n % 65536
/-- What the steps of R136 leave to do. `l3` is the header's place and length; `l4` the segment's place and length, whether
it is UDP, and the pseudo-header's sum; `stop3`, `stop4` that a numbered condition stopped a check. -/
structure Csum where
  win : Bool := false
  len : Bool := false
  l3 : Option (Nat × Nat) := none
  l4 : Option (Nat × Nat × Bool × Nat) := none
  v4 : Bool := false
  stop3 : Bool := false
  stop4 : Bool := false
deriving DecidableEq, Repr
def part (o : Octets) (p n : Nat) : Octets := (o.drop p).take n
/-- Steps 6 to 10. `h` and `t` are the places of the headers, `hl` the length of an IPv4 header. -/
def csumL4 (kind l4kind : Nat) (o : Octets) (h t hl gap : Nat) (c : Csum) : Csum :=
  let v4 := kind == 1
  let proto := if v4 then oct o (h + 9) else oct o (h + 6)
  let off := { c with stop4 := true }
  let lenC := { c with stop4 := true, len := true }
  let total := octBe o (h + 2) 2
  let pay := if v4 then total - hl else octBe o (h + 4) 2
  let fits := if proto = 6 then l4kind == 1 || l4kind == 3 else proto == 17 && (l4kind == 2 || l4kind == 3)
  if l4kind = 0 ∨ fits = false then off
  else if v4 && (octBe o (h + 6) 2 % 0x4000 != 0) then off
  else if (if v4 then hl else 40) ≠ gap then lenC
  else if t + pay > o.length ∨ (v4 = true ∧ total < hl) ∨ t + 8 > o.length then lenC
  else if t + 8 > 256 then { c with stop4 := true, win := true }
  else
    let seg := if proto = 17 then octBe o (t + 4) 2 else pay
    if (proto = 17 ∧ (seg < 8 ∨ pay < seg)) ∨ (proto = 6 ∧ pay < 20) then lenC
    else
      let pseudo := (if v4 then sum16 (part o (h + 12) 8) else sum16 (part o (h + 8) 32)) + proto + seg / 65536 + seg % 65536
      { c with l4 := some (t, seg, proto == 17, pseudo) }
/-- Steps 1 to 10 on frame `o` without its FCS. -/
def csumSteps (t : Template) (base : Nat) (o : Octets) : Csum :=
  let kind := tL3 t
  let h := base + tByte t 53
  let n := if kind = 1 then 20 else 8
  let stop : Csum := { v4 := kind == 1, stop3 := true, stop4 := true }
  if kind = 0 then {}
  else if h + n > o.length then { stop with len := true }
  else if h + n > 256 then { stop with win := true }
  else if oct o h / 16 ≠ (if kind = 1 then 4 else 6) then stop
  else
    let hl := 4 * (oct o h % 16)
    if kind = 1 ∧ (hl < 20 ∨ h + hl > o.length) then { stop with len := true }
    else
      csumL4 kind (tL4 t) o h (base + tByte t 54) hl (tByte t 54 - tByte t 53)
        { v4 := kind == 1, l3 := if kind = 1 then some (h, hl) else none }
/-- The receive checks: L3_CHECKED, L4_CHECKED, `CHECKSUM_BAD`, `LENGTH_CONFLICT`, `WINDOW_EXCEEDED`. -/
def rxChecks (t : Template) (base : Nat) (o : Octets) : Bool × Bool × Bool × Bool × Bool :=
  let c := csumSteps t base o
  let bad3 := match c.l3 with | some (h, n) => foldCarry (sum16 (part o h n)) != 0xFFFF | none => false
  match c.l4 with
  | some (t, seg, udp, pseudo) =>
    if udp && c.v4 && octBe o (t + 6) 2 == 0 then (c.l3.isSome, false, bad3, c.len, c.win)
    else (c.l3.isSome, true, bad3 || foldCarry (pseudo + sum16 (part o t seg)) != 0xFFFF || (udp && octBe o (t + 6) 2 == 0), c.len, c.win)
  | none => (c.l3.isSome, false, bad3, c.len, c.win)
/-- Transmit insertion (R138): the frame, `LENGTH_CONFLICT`, `WINDOW_EXCEEDED` and the number of insertions stopped. -/
def txChecksums (t : Template) (base : Nat) (i3 i4 : Bool) (o : Octets) : Octets × Bool × Bool × Nat :=
  let c := csumSteps t base o
  let o3 := if i3 then (match c.l3 with
    | some (h, n) => let z := patch o (h + 10) [0, 0]; patch z (h + 10) (be 2 (0xFFFF - foldCarry (sum16 (part z h n))))
    | none => o) else o
  let o4 := if i4 then (match c.l4 with
    | some (t, seg, udp, pseudo) =>
      let at_ := t + (if udp then 6 else 16)
      let z := patch o3 at_ [0, 0]
      let v := 0xFFFF - foldCarry (pseudo + sum16 (part z t seg))
      patch z at_ (be 2 (if udp && v == 0 then 0xFFFF else v))
    | none => o3) else o3
  let hit := (i3 && c.stop3) || (i4 && c.stop4)
  (o4, hit && c.len, hit && c.win, b2n (i3 && c.stop3) + b2n (i4 && c.stop4))

/-! ### Rules (R140 to R144) -/
def rule (s : State) (k bank i : Nat) : Rule := tget {} s.pc.rule (4096 * (2 * k + bank) + i)
def rAct (r : Rule) (lo w : Nat) : Nat := bits r.action.toNat lo w
/-- A rule image that R140 accepts. -/
def ruleOk (r : Rule) : Bool := (r.value &&& ~~~ r.mask) == 0 && rAct r 8 2 != 3 && decide (rAct r 10 3 < 6) && rAct r 13 1 == 0 && rAct r 78 50 == 0
def ruleMatches (key : BitVec 512) (r : Rule) : Bool := bit r.action.toNat 0 && ((key &&& r.mask) == r.value)
/-- The chain of R143: indices of the matching rules taken, at most four. -/
def ruleChain (key : BitVec 512) (lo : Nat) : Nat → List (Nat × Rule) → List (Nat × Rule)
  | 0, _ => []
  | _, [] => []
  | n + 1, (i, r) :: t =>
    if lo ≤ i && decide (i < lo + 4096) && ruleMatches key r then
      (i - lo, r) :: (if rAct r 1 1 = 1 then ruleChain key lo n t else [])
    else ruleChain key lo (n + 1) t
/-- Destination of an action word. A number outside its range names no object (R7): no group, and so no valid destination, and no skein to
hint at (log 84). -/
def destOf (kind d : Nat) : Dest :=
  if kind = 1 then .bobbin d else if kind = 2 then (if d < 4096 then .skein d else .stream) else if kind = 3 then .spread d else if kind = 4 then .stream else .drop
/-- First enabled value of a chain. -/
def firstVal {α : Type} (f : Rule → Option α) : List (Nat × Rule) → Option α
  | [] => none
  | (_, r) :: t => match f r with | some v => some v | none => firstVal f t

/-! ### Key (R134) and hash (R152) -/
def put (v lo : Nat) : Nat := v <<< lo
/-- The key of a pass, its extracted area, template and base given. -/
def keyOf (f : RxFrame) (prof depth etype : Nat) (area : Nat) (tmpl : Option Nat) (second : Bool) (prevCls prevCol : Nat) : BitVec 512 :=
  BitVec.ofNat 512 (area
    + put (b2n f.winX ||| b2n f.winC) 384 + put (b2n f.tagDepth) 385 + put (b2n f.lenConf) 386 + put (b2n f.csumBad) 387
    + put (b2n f.runt) 388 + put (b2n f.unknownDa) 389 + put (b2n f.fcsBad) 392 + put (b2n f.truncated) 393
    + put (b2n f.duplicate) 394 + put (b2n tmpl.isNone) 395 + put (b2n f.l3chk) 396 + put (b2n f.l4chk) 397
    + put (b2n second) 399 + put (tmpl.getD 0) 400 + put f.port 408 + put prof 413 + put depth 416 + put f.removed 418
    + put f.vid 420 + put f.pcp 432 + put etype 448 + put f.stream 464 + put f.red 478 + put f.daDest.toNat 480
    + put (if second then f.passTag else 0) 496 + put prevCls 504 + put prevCol 508)
/-- Octets of field `i` as the key holds them. -/
def keyField (t : Template) (key : BitVec 512) (i : Nat) : Octets := let v := tField t i; le (fSize v) (bits key.toNat (8 * fDest v) (8 * fSize v))
/-- The string S of R152 and its CRC-32C. -/
def hashOf (t : Option Template) (key : BitVec 512) (o : Octets) : Nat :=
  let use := fun i => match t with | some t => (tHash t i).2 | none => false
  let fld := fun i => match t with | some t => keyField t key (tHash t i).1 | none => []
  let (a, b) := if use 0 then (fld 0, fld 1) else (le 6 (ofLe (part o 0 6)), le 6 (ofLe (part o 6 6)))
  let (pa, pb) := if use 0 && use 2 then (fld 2, fld 3) else ([], [])
  let swap := decide (ofBe b < ofBe a) || (ofBe a == ofBe b && decide (ofBe pb < ofBe pa))
  let x := if use 4 then fld 4 else []
  crc32c 0xFFFFFFFF (if swap then b ++ a ++ pb ++ pa ++ x else a ++ b ++ pa ++ pb ++ x)

end Sys2Proof.Machine
end

