-- ==== Sys2Proof/Machine/Records.lean ====
section
/-! DEFINITION. Completion records (R203 to R207, R507), crumbs (R64), residence, lateness and its cause (R232 to R237), and
the end of a frame for its cells, its contract and its bobbin (R231, R248, R249, R214). -/
namespace Sys2Proof.Machine

/-! ### "First" events: the tags under which State keeps them -/
def tgRefused : Nat := 0
def tgDemoted : Nat := 1
def tgLate : Nat := 2
def tgRogue : Nat := 3
def tgUnmatched : Nat := 4
def tgFlag : Nat := 5
def tgRecirc : Nat := 6
def tgDest : Nat := 7
/-- station table, by event number -/
def tgStn : Nat := 8

/-! ### Banks and crumbs -/
def bobGroup (b : Nat) : Nat := 38 + b / 32768
/-- Set crumb `i` of bobbin `b`; its bit of the summary and the event follow (R64, R220, R221). -/
def crumb (s : State) (b i : Nat) : State :=
  let B := bobn s b
  let new := !B.crumbs.toNat.testBit i
  let s := setBob s b { B with crumbs := setBitAt B.crumbs i true }
  if new && !tget false s.bob.summary (b / 64) then
    raise { s with bob := { s.bob with summary := tset false s.bob.summary (b / 64) true } } (bobGroup b) 7
  else s
/-- The crumb that a completion code sets. -/
def codeCrumb (k : BitVec 8) : Option Nat :=
  if isRefused k then some 0 else if isLate k then some 1 else if isMalformed k then some 2
  else if k == kRX_OUT_OF_BUFFERS || k == kRX_STARVED then some 3 else none
/-- A record of completion bobbin `cb` is dropped (R206). -/
def dropRec (s : State) (cb : Nat) (full : Bool) : State :=
  let s := raise (cntBank s cb 5 1) (bobGroup cb) 5
  if full then crumb s cb 3 else s

/-! ### Contracts: reservations and residence -/
/-- Octets held at most (R245). -/
def ctVolume (i : CtImage) : Nat := i.burst + ceilDiv (i.rate * (8 * i.bound + if !i.rx && i.release then 32768 else 0)) 8000
def psCells (i : CtImage) : Nat := ceilDiv (ctVolume i) 64 + ctVolume i / 84
def rxReserve (i : CtImage) : Nat := ceilDiv (ctVolume i) i.rxBufLen + ctVolume i / 84
/-- Slice whose cells a port's frames take; slice S3 for a plied port follows from its number 24 (R245). -/
def bound8 (i : CtImage) : Nat := 8 * i.bound
/-- The interval [from, to) meets [start, now]. -/
def overlaps (start now : Nat) (i : Nat × Option Nat) : Bool := decide (i.1 ≤ now) && (match i.2 with | none => true | some e => decide (start < e))
/-- First cause of R235 for a frame that needs domains `doms`, none for R237. -/
def lateCause (s : State) (rx : Bool) (p : Nat) (doms : List Nat) (C : Contract) (start : Nat) : Option (BitVec 8) :=
  let hit := overlaps start s.tm.count
  if s.pw.lateReset.any hit then some kLATE_RESET
  else if s.pw.latePower.any (fun e => (e.1 == 63 || doms.contains e.1) && hit e.2) then some kLATE_POWER
  else if rx then none
  else if C.pastSusp.any (fun e => hit (e.1, some e.2)) || (C.suspended && hit (C.suspFrom, none)) then some kLATE_STACK_SPLIT
  else if (line s p).breaches.any (fun e => hit (8 * e.1, some (8 * e.2))) then some kLATE_PARTNER_PAUSE
  else none
/-- What a late frame of contract `n` counts and raises (R62, R237, R251, R252, R413). -/
def noteLate (s : State) (rx : Bool) (p n : Nat) (code : Option (BitVec 8)) : State :=
  let C := contr s n
  let s := raiseFirst (setCt s n { C with late := C.late + 1 }) tgLate n 46 2
  match code with
  | some k => ldAdd (raise (if rx then s else cntPort s p cTX_LATE 1) p 12) (0xE00 + 8 * (k.toNat - 0x2F)) 1
  | none => ldAdd (raise s 46 3) 0xE00 1
/-- Residence `r` of a frame under bound `b`: histogram (R63), worst margins (R251, R413). A frame completed unsent has no residence and adds
to no bin, which is the model's reading (log 92). -/
def noteResidence (s : State) (rx : Bool) (p n b r : Nat) (t : T96) : State :=
  let s := if (pset s p).line.histRx == rx then cntHist s p (if b < r then 31 else min 30 (31 * r / b)) else s
  let m : Int := (b : Int) - r
  let C := contr s n
  ldWorst (setCt s n { C with worst := min C.worst m }) m n (p + b2n rx * 128) t
/-- Domains a frame needs (R235). -/
def frameDoms (s : State) (p b : Nat) : List Nat :=
  (match pdef s p with | some d => portDomains p d.width (s.port.starterPort.toNat.testBit p) | none => []) ++ [dBC (b / 32768)]
def psDoms (p cells cells0 : Nat) : List Nat :=
  (if 0 < cells0 then [dPS (2 * sliceOf p)] else []) ++ (if cells0 < cells then [dPS (2 * sliceOf p + 1)] else [])

/-! ### Records -/
/-- The 32 bytes of R203. -/
def recordOf (code qual dir epoch colour preempted demoted flags bobStream length count user time delta tail : Nat) : Octets :=
  le 1 code ++ le 1 (qual + dir * 4 + epoch * 8 + colour * 16 + preempted * 64 + demoted * 128) ++ le 2 flags ++ le 4 bobStream ++
  le 2 length ++ le 2 count ++ le 4 user ++ le 8 time ++ le 4 delta ++ le 4 tail
/-- Entries of `b` that issued records cover, not yet passed by BLOCK_IDX. -/
def outstanding (s : State) (b : Nat) : Nat :=
  (s.bob.issued.filter (fun e => e.record.src == some b)).foldl (fun a e => a + e.record.count) 0
def nextIssue (s : State) (b : Nat) : Nat := let B := bobn s b; (B.blockIdx + outstanding s b) % (2 * bsize B)
/-- Slot for the next record of completion bobbin `cb` (R507). -/
def nextSlotOf (s : State) (cb : Nat) : Nat :=
  let C := bobn s cb
  s.bob.issued.foldl (fun a e => if e.cb = cb then (match e.slot with | some k => (k + 1) % (2 * bsize C) | none => a) else a) C.blockIdx
def cbOf (s : State) (r : Rec) : Nat := match r.src with | some b => (bobn s b).completion | none => s.stn.exportBob
/-- Residence, promise and lateness of a promised receive frame at the issue of its record (R233 to R235). -/
def rxPromise (s : State) (r : Rec) : State × Rec :=
  match r.promise, r.src with
  | some x, some b =>
    let n := x.contract
    let s := setCt s n { contr s n with accepted := (contr s n).accepted + 1 }
    let C := contr s n
    let p := C.img.port
    let res := ((accOf s (nowT s) - x.startAcc) / 65536).toNat
    let bnd := x.bound
    let s := noteResidence s true p n bnd res (nowT s)
    let patchD := patch r.bytes 24 (le 4 (min res (2 ^ 32 - 1)))
    if bnd < res then
      let k := lateCause s true p (frameDoms s p b) C x.startCount
      (noteLate s true p n k, { r with bytes := match k with | some k => patch patchD 0 (le 1 k.toNat) | none => patchD })
    else (s, { r with bytes := patchD })
  | _, _ => (s, r)
/-- Issue a record whose turn has come, or drop it (R205 step 1, R206). -/
def issueOne (s : State) (r : Rec) : State :=
  let (s, r) := rxPromise s r
  let cb := cbOf s r
  let s := match r.src, codeCrumb (BitVec.ofNat 8 (oct r.bytes 0)) with
    | some b, some i => crumb s b i
    | _, _ => s
  let C := bobn s cb
  let slot := nextSlotOf s cb
  if C.st ≠ .opened ∨ C.kind ≠ .completion ∨ occOf slot C.hostIdx (bsize C) ≥ bsize C then
    let s := dropRec s cb (C.st == .opened)
    { s with bob := { s.bob with issued := s.bob.issued ++ [{ cb := cb, slot := none, record := r, acked := true }] } }
  else { s with bob := { s.bob with issued := s.bob.issued ++ [{ cb := cb, slot := some slot, record := r }] } }
/-- A transfer of the block's fabric DMA master for bobbins and frames (R238). -/
inductive FabXfer where
  /-- the fetch of a descriptor -/
  | descriptor (b index : Nat)
  /-- the data read of a transmit frame -/
  | txData (fid : Nat)
  /-- the data writes of a delivery -/
  | rxData (rid : Nat)
  /-- the write of the record in a slot of a completion bobbin -/
  | record (cb slot : Nat)
deriving DecidableEq, Repr
/-- Transfers for bobbin `b`'s descriptors and records are contracted: its CSTATE is 1 or 2 (R238). -/
def bobContracted (s : State) (b : Nat) : Bool := (bobn s b).cstate != .free
/-- The record is written with a contracted request, whatever its code. -/
def recContracted (s : State) (r : Rec) : Bool := match r.src with | some b => bobContracted s b | none => false
/-- FAB_CMD's mark CONTRACTED (R238). -/
def xferContracted (s : State) : FabXfer → Bool
  | .descriptor b _ => bobContracted s b
  | .txData fid => s.tx.frames.any (fun f => f.id == fid && f.origin == .accepted)
  | .rxData rid => s.rx.writes.any (fun w => w.id == rid && w.promise.isSome)
  | .record cb slot => s.bob.issued.any (fun e => e.cb == cb && e.slot == some slot && recContracted s e.record)
/-- Transfers that the master has outstanding or is about to issue. -/
def fabXfers (s : State) : List FabXfer :=
  (s.bob.tab.filter (fun e => (e.2.st == .opened) && e.2.kind != .completion && e.2.next != e.2.hostIdx && (tget [] e.2.pushed e.2.next).isEmpty)).map (fun e => .descriptor e.1 e.2.next) ++
  (s.tx.frames.filter (fun f => f.stage == .reading)).map (fun f => .txData f.id) ++
  s.rx.writes.map (fun w => .rxData w.id) ++
  s.bob.issued.filterMap (fun e => match e.slot with | some k => if e.acked then none else some (.record e.cb k) | none => none)
/-- The master issues contracted transfers ahead of all others (R238). -/
def fabOrder (s : State) : List FabXfer := (fabXfers s).filter (xferContracted s) ++ (fabXfers s).filter (fun x => !xferContracted s x)
/-- The first ready record of `l` that satisfies `q` and whose turn in its source's ring has come. -/
def popReadyWhere (s : State) (q : Rec → Bool) : List Rec → Option (Rec × List Rec)
  | [] => none
  | r :: t =>
    if q r && (match r.src with | none => true | some b => r.index == nextIssue s b) then some (r, t)
    else (popReadyWhere s q t).map (fun x => (x.1, r :: x.2))
/-- The ready record to issue next: a contracted one first (R205, R238). -/
def popReady (s : State) (l : List Rec) : Option (Rec × List Rec) :=
  match popReadyWhere s (recContracted s) l with
  | some x => some x
  | none => popReadyWhere s (fun _ => true) l
def issueReady : Nat → State → State
  | 0, s => s
  | n + 1, s => match popReady s s.bob.ready with
    | none => s
    | some (r, t) => issueReady n (issueOne { s with bob := { s.bob with ready := t } } r)

/-! ### Ends of frames -/
/-- A frame of bobbin `b` is in flight, or a record of it is not settled (R214, R215). -/
def bobInFlight (s : State) (b : Nat) : Bool :=
  s.tx.frames.any (fun f => f.bobbin == b && !f.dead && (match f.origin with | .csi _ => false | _ => true)) || s.rx.writes.any (fun w => w.bobbin == b) ||
  s.bob.issued.any (fun e => e.record.src == some b) || s.bob.ready.any (fun r => r.src == some b)
/-- An accepted or promised frame of contract `n`, numbered below `below` when given, is in flight. -/
def ctInFlight (s : State) (n : Nat) (below : Option Nat) : Bool :=
  let under := fun (i : Nat) => match below with | some k => decide (i < k) | none => true
  let held := fun (p : Option Promise) => match p with | some x => x.contract == n && under x.id | none => false
  s.tx.frames.any (fun f => f.origin == .accepted && f.contract == n && under f.id) ||
  s.rx.writes.any (fun w => held w.promise) || s.bob.issued.any (fun e => held e.record.promise) || s.bob.ready.any (fun r => held r.promise)
/-- Reservation shrunk to `need`, giving up PS(2k+1) first (R506). -/
def shrinkDraw (C : Contract) (need : Nat) : Contract := { C with draw0 := min C.draw0 need, draw1 := min C.draw1 (need - C.draw0) }
/-- Withdrawal and transition of contract `n` end with its last frame (R248, R249). -/
def ctSettle (s : State) (n : Nat) : State :=
  let C := contr s n
  if C.st = .withdrawing ∧ ctInFlight s n none = false then
    raise (setCt s n { C with st := .free, trans := none, bobbin := none, draw0 := 0, draw1 := 0, held := 0, suspended := false, reachAt := none, pastSusp := [] }) 46 4
  else if C.trans.isSome ∧ ctInFlight s n (some C.transFid) = false then
    setCt s n (if C.img.rx then { C with trans := none } else shrinkDraw { C with trans := none } (psCells C.img))
  else s
/-- The cells frame `f` holds go back to its contract or to the pool (R231, R260). -/
def releaseCells (s : State) (f : TxFrame) : State :=
  if f.origin = .accepted then let C := contr s f.contract; setCt s f.contract { C with held := C.held - f.cells }
  else if f.stage = .claiming ∨ f.stage = .atDoor then s
  else { s with tx := { s.tx with poolHeld := tset 0 s.tx.poolHeld (sliceOf f.port) (tget 0 s.tx.poolHeld (sliceOf f.port) - f.cells) } }
def txFrame (s : State) (fid : Nat) : Option TxFrame := s.tx.frames.find? (fun f => f.id == fid)
def setFrame (s : State) (f : TxFrame) : State := { s with tx := { s.tx with frames := s.tx.frames.map (fun g => if g.id = f.id then f else g) } }
/-- Breach intervals that no frame in flight can meet any more are forgotten (R44). -/
def pruneBreaches (s : State) (p : Nat) : State :=
  let L := line s p
  setLine s p { L with breaches := L.breaches.filter (fun e => decide (s.tm.count < 8 * e.2) ||
    s.tx.frames.any (fun f => f.origin == .accepted && f.port == p && decide (f.start < 8 * e.2))) }
/-- Frame `fid` leaves flight: what it still holds is released. -/
def frameGone (s : State) (fid : Nat) : State :=
  match txFrame s fid with
  | none => s
  | some f =>
    let s := releaseCells s f
    let s := { s with tx := { s.tx with frames := s.tx.frames.filter (fun g => g.id != fid)
                                        claims := tmap [] (fun _ l => l.filter (· != fid)) s.tx.claims } }
    pruneBreaches (if f.origin = .accepted then ctSettle s f.contract else s) f.port
/-- A drain ends (R214). -/
def drainCheck (s : State) (b : Nat) : State :=
  let B := bobn s b
  if B.st = .draining ∧ B.blockIdx = B.hostIdx ∧ bobInFlight s b = false then raise (setBob s b { B with st := .opened }) (bobGroup b) 8 else s
/-- The notify map (R207). -/
def notify (s : State) (cb : Nat) : State :=
  if (bobn s cb).notify && !tget false s.bob.notify cb then
    raise { s with bob := { s.bob with notify := tset false s.bob.notify cb true } } (bobGroup cb) 6
  else s
/-- The completion bobbin's side of the oldest unsettled record (step 2 of R205): its index, or a drop. -/
def settleSlot (s : State) (e : Issued) : State :=
  let C := bobn s e.cb
  match e.slot with
  | none => s
  | some k =>
    if e.error then dropRec s e.cb false
    else if C.st = .opened then notify (setBob s e.cb { C with blockIdx := (k + 1) % (2 * bsize C) }) e.cb
    else s
/-- The source's index passes the entries of a settled record (step 3). -/
def settleSrc (s : State) (b count : Nat) : State :=
  let B := bobn s b
  if B.st = .opened ∨ B.st = .draining then setBob s b { B with blockIdx := (B.blockIdx + count) % (2 * bsize B) } else s
/-- Steps 2 and 3 of R205 for the oldest unsettled record of its completion bobbin. -/
def settleRec (s : State) (e : Issued) : State :=
  let s := settleSlot s e
  let s := match e.record.src with | some b => settleSrc s b e.record.count | none => s
  let s := match e.record.fid with | some f => frameGone s f | none => s
  let s := match e.record.promise with | some x => ctSettle s x.contract | none => s
  match e.record.src with | some b => drainCheck s b | none => s
/-- The first issued record that is acknowledged and has none before it in its completion bobbin. -/
def popAcked (seen : List Nat) : List Issued → Option (Issued × List Issued)
  | [] => none
  | e :: t => if e.acked && !seen.contains e.cb then some (e, t) else (popAcked (e.cb :: seen) t).map (fun x => (x.1, e :: x.2))
def settleIssued : Nat → State → State
  | 0, s => s
  | n + 1, s => match popAcked [] s.bob.issued with
    | none => s
    | some (e, t) => settleIssued n (settleRec { s with bob := { s.bob with issued := t } } e)
/-- Everything of R205 that can go on at once. -/
def pump (s : State) : State :=
  let s := issueReady s.bob.ready.length s
  settleIssued s.bob.issued.length s
/-- The record of a frame that bobbin `b`'s lost bank left behind is dropped (R206, R217). The crumb of its code is set all the same,
while the STALE bobbin's context has power (R64). -/
def dropLost (s : State) (b : Nat) (r : Rec) : State :=
  let s := dropRec s (bobn s b).completion false
  let s := match codeCrumb (BitVec.ofNat 8 (oct r.bytes 0)) with
    | some i => if (bobn s b).st = .stale ∧ isOn s (dBC (b / 32768)) then crumb s b i else s
    | none => s
  let s := match r.fid with | some f => frameGone s f | none => s
  match r.promise with | some x => ctSettle s x.contract | none => s
/-- The block completes an entry or a frame. Of a bobbin that is STALE or CLOSED the record is dropped (R217). -/
def complete (s : State) (r : Rec) : State :=
  match r.src with
  | some b =>
    if (bobn s b).st = .opened ∨ (bobn s b).st = .draining then pump { s with bob := { s.bob with ready := s.bob.ready ++ [r] } }
    else dropLost s b r
  | none => pump { s with bob := { s.bob with ready := s.bob.ready ++ [r] } }
/-- `COMPLETION_RECORD_ACK`: the fabric acknowledges the record issued into `slot` of `cb`, or answers ERROR (R205, R459, R507). -/
def completionRecordAck (cb slot : Nat) (error : Bool) (s : State) : State :=
  match s.bob.issued.find? (fun e => e.cb == cb && e.slot == some slot && !e.acked) with
  | none => s
  | some e =>
    let C := bobn s cb
    let s := fabWrite s (C.base.toNat * 64 + 32 * (slot % bsize C)) e.record.bytes error
    pump { s with bob := { s.bob with issued := s.bob.issued.map (fun x => if x.cb = cb ∧ x.slot = some slot ∧ x.acked = false then { x with acked := true, error := error } else x) } }
def execCompletionRecordAck (cb slot : Nat) (error : Bool) (s : State) : Host.Outcome State Fault Refusal := event (completionRecordAck cb slot error s)

end Sys2Proof.Machine
end

