-- ==== Sys2Proof/Machine/Tx.lean ====
section
/-! DEFINITION. The transmit path: examination (R199 to R202), the door (R227 to R230), the shared pool (R258 to R260), the
finished frame (R30, R47, R109 to R113, R138, R95 to R99), the Whorl (R253 to R267), time-stamps (R86), the end of a frame,
and a port going down (R29, R236). -/
namespace Sys2Proof.Machine

/-! ### Descriptors (R196) -/
def dfl (d : BitVec 256) (lo w : Nat) : Nat := bits d.toNat lo w
def dbit (d : BitVec 256) (i : Nat) : Bool := bit d.toNat i
def dLen (d : BitVec 256) : Nat := dfl d 64 16
/-- Octets of frame data after a supplied FCS is removed (R34). -/
def dataLen (d : BitVec 256) : Nat := dLen d - (if dbit d 80 then 4 else 0)
def txProfile (s : State) (p i : Nat) : TagProfile := tget {} (pset s p).tag i
/-- Octets of a redundancy tag between the tags and the data, and of a trailer. -/
def redInner (P : TagProfile) : Nat := if P.redKind = 1 ∨ P.redKind = 2 then 6 else 0
def redTrailer (P : TagProfile) : Nat := if P.redKind = 3 then 6 else 0
/-- Finished length with FCS (R30). -/
def finished (P : TagProfile) (n : Nat) : Nat := max 60 (n + 4 * P.count + redInner P) + redTrailer P + 4
def profStream (P : TagProfile) : Nat := if P.redKind = 0 then 0 else P.stream
def tpidVal (s : State) (p : Nat) : Tpid → Nat
  | .value v => v.toNat
  | .custom => (pset s p).rx.custom.toNat
/-- Reserved bits of a transmit descriptor. -/
def txReserved (d : BitVec 256) : Bool := dfl d 56 8 != 0 || dbit d 87 || dfl d 92 4 != 0 || dfl d 102 10 != 0
def skeinPort (s : State) (B : Bobbin) : Nat := (skein s B.skein).port
/-- RELEASE_TIME in units of 2^-16 ns (R201). -/
def releaseAt (s : State) (d : BitVec 256) : Nat := t64near (t96n (nowT s)) (dfl d 192 64)
/-- The checks of R199 in order; none when the descriptor passes. -/
def txCheck (s : State) (b : Nat) (d : BitVec 256) : Option (BitVec 8) :=
  let B := bobn s b
  let p := skeinPort s B
  let P := txProfile s p (dfl d 88 4)
  let n : Int := t96n (nowT s)
  let t : Int := releaseAt s d
  firstOf [
    (txReserved d || ((dbit d 83 || dbit d 84) && !tValid (template s (sliceOf p) (dfl d 96 6))), kMALFORMED_RESERVED),
    (dLen d == 0 || decide (16383 < dLen d) || decide (dataLen d < 14) || decide ((pset s p).line.m < finished P (dataLen d)), kMALFORMED_LENGTH),
    (!inWindow s B.window (dfl d 0 56) (dLen d), kMALFORMED_ADDRESS),
    ((B.cstate == .free && (dbit d 86 || dbit d 85)) || (B.cstate != .free && (!dbit d 86 || dfl d 144 16 != B.contract)) ||
      (B.cstate == .bound && dbit d 85 != (contr s B.contract).img.release), kMALFORMED_CONTRACT),
    (dbit d 85 && (decide (t < n - 64 * 65536 * (B.tol : Int)) || decide (n + 32768 * 65536 < t) ||
      (match B.lastRelease with | some l => decide (t < l) | none => false)), kMALFORMED_TIME)]

/-! ### Records of the transmit side -/
def nowT64 (s : State) : Nat := t64 (nowT s)
/-- Record of an entry that is not sent: its length, user and stream given. -/
def unsentRec (s : State) (b idx : Nat) (code : BitVec 8) (len user stream cls : Nat) (fid : Option Nat) : Rec :=
  { src := some b, index := idx, count := 1, fid := fid
    bytes := recordOf code.toNat (qualCode (nowQ s)) 0 0 0 0 0 (cls * 4096) (b + stream * 2 ^ 18) len 1 user (nowT64 s) 0 idx }
def bobClass (s : State) (b : Nat) : Nat := (skein s (bobn s b).skein).cls
/-- A malformed entry (R202). -/
def malformedTx (s : State) (b idx : Nat) (code : BitVec 8) (user stream : Nat) : State :=
  let s := raise (cntBank s b 2 1) (bobGroup b) 2
  complete s (unsentRec s b idx code 0 user stream (bobClass s b) none)
/-- An entry of a draining bobbin that was never examined: its USER was not read, so it is free (log 23). -/
def drainEntry (s : State) (b idx : Nat) : State :=
  let (u, s) := match tget [] (bobn s b).pushed idx with
    | [] => let (w, s) := freeWord s; (w.toNat % 2 ^ 32, s)
    | o => (ofLe (part o 20 4), s)
  complete (cntBank s b 6 1) (unsentRec s b idx kDRAINED 0 u 0 (bobClass s b) none)

/-! ### Proof store (R258 to R260) -/
def psUsable (s : State) (m : Nat) : Nat := if usable s (dPS m) then 24576 else 0
def slicePorts (k p : Nat) : Bool := p / 8 == k
/-- Reservations of the contracts of slice `k` in each bank. -/
def drawn (s : State) (k : Nat) : Nat × Nat :=
  s.ct.tab.foldl (fun a e => if e.2.st ≠ .free ∧ sliceOf e.2.img.port = k then (a.1 + e.2.draw0, a.2 + e.2.draw1) else a) (0, 0)
def poolSize (s : State) (k : Nat) : Nat := psUsable s (2 * k) + psUsable s (2 * k + 1) - ((drawn s k).1 + (drawn s k).2)
def poolFree (s : State) (k : Nat) : Nat := poolSize s k - tget 0 s.tx.poolHeld k
def isPool (f : TxFrame) : Bool := f.origin != .accepted
/-- Cells of the frames that satisfy `q` in PS(2k). -/
def cellsIn0 (s : State) (q : TxFrame → Bool) : Nat := (s.tx.frames.filter q).foldl (fun a f => a + f.cells0) 0
def claim_ (s : State) (f : TxFrame) : State :=
  let k := sliceOf f.port
  { s with tx := { s.tx with frames := s.tx.frames ++ [{ f with stage := .claiming }]
                             claims := tset [] s.tx.claims k (tget [] s.tx.claims k ++ [f.id]) } }
/-- `POOL_CLAIM_GRANTED`: the oldest claim of slice `k`, when the pool has room (R260). -/
def poolClaimGranted (k : Nat) (s : State) : State :=
  match tget [] s.tx.claims k with
  | [] => s
  | fid :: t =>
    match txFrame s fid with
    | none => s
    | some f =>
      if f.cells ≤ poolFree s k then
        let room0 := psUsable s (2 * k) - (drawn s k).1 - cellsIn0 s (fun g => isPool g && sliceOf g.port == k)
        let csi := match f.origin with | .csi _ => true | _ => false
        let s := setFrame s { f with stage := if csi then .staged else .reading, stagedAt := s.tm.count, cells0 := min f.cells room0 }
        { s with tx := { s.tx with claims := tset [] s.tx.claims k t, poolHeld := tset 0 s.tx.poolHeld k (tget 0 s.tx.poolHeld k + f.cells) } }
      else s
def execPoolClaimGranted (k : Nat) (s : State) : Host.Outcome State Fault Refusal := event (poolClaimGranted k s)

/-! ### The door (R227 to R230) -/
def newId (s : State) : Nat × State := (s.tx.nextId, { s with tx := { s.tx with nextId := s.tx.nextId + 1 } })
/-- A refusal at the door. -/
def refuse (s : State) (f : TxFrame) (code : BitVec 8) : State :=
  let C := contr s f.contract
  let s := raiseFirst (setCt s f.contract { C with refused := C.refused + 1 }) tgRefused f.contract 46 0
  let s := cntPort s f.port cTX_REFUSED 1
  complete s (unsentRec s f.bobbin f.index code f.len (dfl f.desc 160 32) f.stream (bobClass s f.bobbin) none)
/-- A nonconforming frame: demoted, or refused (R230). -/
def nonconforming (s : State) (f : TxFrame) : State :=
  let C := contr s f.contract
  if C.img.demoteEn then
    let s := raiseFirst (setCt s f.contract { C with demoted := C.demoted + 1 }) tgDemoted f.contract 46 1
    claim_ s { f with origin := .demoted, skein := C.img.demoteSkein, cls := (skein s C.img.demoteSkein).cls }
  else refuse s f kREFUSED_NONCONFORMING
/-- The bucket of R229 at start instant `st`. -/
def refill (C : Contract) (st : Nat) : Contract :=
  if C.last < st then { C with tok := min (C.img.burst * 8000) (C.tok + C.img.rate * min (st - C.last) (2 ^ 37)), last := st } else C
def cost (l : Nat) : Nat := (l + 20) * 8000
/-- The door decision. -/
def door (s : State) (f : TxFrame) : State :=
  let B := bobn s f.bobbin
  let C := contr s f.contract
  if B.cstate ≠ .bound then refuse s f kREFUSED_NO_CONTRACT
  else if (line s f.port).up = false ∨ s.port.downing.toNat.testBit f.port then refuse s f kREFUSED_PORT_DOWN
  else if C.suspended then refuse s f kREFUSED_STACK_SPLIT
  else if C.img.maxFrame < f.len then nonconforming s f
  else
    let now := t96n (nowT s)
    let rel := releaseAt s f.desc
    let late := dbit f.desc 85 && decide (now < rel)
    let st := if late then s.tm.count + ceilDiv (rel - now) 65536 else s.tm.count
    let C := refill C st
    let s := setCt s f.contract C
    if C.tok < cost f.len then nonconforming s f
    else
      let d0 := if usable s (dPS (2 * sliceOf f.port)) then C.draw0 else 0
      let d1 := if usable s (dPS (2 * sliceOf f.port + 1)) then C.draw1 else 0
      if d0 + d1 < C.held + f.cells then nonconforming (raise s 47 0) f
      else
        let used0 := cellsIn0 s (fun g => g.origin == .accepted && g.contract == f.contract)
        let s := setCt s f.contract { C with tok := C.tok - cost f.len, held := C.held + f.cells, accepted := C.accepted + 1 }
        let s := if dbit f.desc 85 then setBob s f.bobbin { B with lastRelease := some rel } else s
        { s with tx := { s.tx with frames := s.tx.frames ++ [{ f with
            origin := .accepted, stage := .reading, start := st, cells0 := min f.cells (d0 - used0)
            startAcc := (if late then (rel : Int) else now) - s.tu.stepAcc, bound := bound8 C.img }] } }

/-- Take entry `idx` of transmit bobbin `b`: its descriptor, or none for a failed fetch (R199, R202, R228, R478). -/
def examine (s : State) (b idx : Nat) (d : Option (BitVec 256)) : State :=
  let B := bobn s b
  let s := setBob s b { B with next := (idx + 1) % (2 * bsize B), pushed := tset [] B.pushed idx [] }
  match d with
  | none => let (u, s) := freeWord s; malformedTx s b idx kMALFORMED_ADDRESS (u.toNat % 2 ^ 32) 0
  | some d =>
    let p := skeinPort s B
    let P := txProfile s p (dfl d 88 4)
    match txCheck s b d with
    | some k => malformedTx s b idx k (dfl d 160 32) (profStream P)
    | none =>
      let (id, s) := newId s
      let len := finished P (dataLen d)
      let f : TxFrame := { id := id, origin := .uncontracted, bobbin := b, index := idx, port := p, skein := B.skein, cls := bobClass s b
                           contract := if B.cstate = .free then 0 else B.contract, desc := d, len := len, cells := ceilDiv len 64, stream := profStream P }
      if B.cstate = .free then claim_ s f
      else if s.pw.softHold then { s with tx := { s.tx with frames := s.tx.frames ++ [{ f with stage := .atDoor }] } }
      else door s f
/-- Pushed descriptors whose turn has come are examined without a fetch (R210). -/
def examinePushed : Nat → Nat → State → State
  | 0, _, s => s
  | n + 1, b, s =>
    let B := bobn s b
    match tget [] B.pushed B.next with
    | [] => s
    | o => if B.next = B.hostIdx ∨ B.st ≠ .opened then s else examinePushed n b (examine s b B.next (some (BitVec.ofNat 256 (ofLe o))))
/-- The bobbin's frames can be worked on: its bank, the index file and the contract table take part in a frame's path. -/
def bobPowered (s : State) (b : Nat) : Bool := usable s (dBC (b / 32768)) && usable s dHD && usable s dSL
/-- A descriptor of transmit bobbin `b` returns (R195, R228, R459). -/
def txDescriptor (b : Nat) (r : FabReply) (s : State) : State :=
  let B := bobn s b
  if B.st = .opened ∧ B.kind = .transmit ∧ B.next ≠ B.hostIdx ∧ (tget [] B.pushed B.next).isEmpty ∧ bobPowered s b then
    examinePushed B.pushed.length b (examine s b B.next (if r.error then none else some (BitVec.ofNat 256 (ofLe (r.data.take 32)))))
  else s
/-- Door decisions that a soft reset held back are made in order (R478). -/
def doorsHeld (s : State) : State :=
  (s.tx.frames.filter (fun f => f.stage == .atDoor)).foldl
    (fun s f => door { s with tx := { s.tx with frames := s.tx.frames.filter (fun g => g.id != f.id) } } f) s

/-! ### Staging -/
/-- Eligibility instant of a staged frame (R253). -/
def eligAt (f : TxFrame) : Nat := if f.origin = .accepted then max f.start f.stagedAt else f.stagedAt
/-- `FRAME_STAGED` (R231): the data read is whole. -/
def frameStaged (fid : Nat) (data : Octets) (s : State) : State :=
  match txFrame s fid with
  | none => s
  | some f =>
    if f.stage = .reading then
      setFrame s { f with stage := .staged, stagedAt := s.tm.count, data := (data ++ List.replicate (dLen f.desc) 0).take (dataLen f.desc) }
    else s
def execFrameStaged (fid : Nat) (data : Octets) (s : State) : Host.Outcome State Fault Refusal := event (frameStaged fid data s)
/-- Record of a frame that left the descriptor stage, sent or not. -/
def frameRec (s : State) (f : TxFrame) (code : BitVec 8) (sent : Bool) : Rec :=
  { src := some f.bobbin, index := f.index, count := 1, fid := some f.id
    bytes := recordOf code.toNat (qualCode (if sent then f.quality else nowQ s)) 0 0 0 (b2n (decide (0 < f.fragments) && sent)) (b2n (f.origin == .demoted))
      (f.csumFlags.toNat + (if sent then f.cls else bobClass s f.bobbin) * 4096) (f.bobbin + f.stream * 2 ^ 18) f.len 1 (dfl f.desc 160 32)
      (if sent then t64 f.stamp else nowT64 s)
      (if sent && f.origin == .accepted then min (f.residence.toNat) (2 ^ 32 - 1) else 0) f.index }
/-- Frame `f` completes with record `r`; the record of a frame that a lost bank left behind is dropped (R217). -/
def finishFrame (s : State) (f : TxFrame) (r : Rec) : State := if f.dead then dropLost s f.bobbin r else complete s r
/-- An eligible frame leaves the port unsent: the idle threshold of R52 counts from here. -/
def leftUnsent (s : State) (f : TxFrame) : State :=
  if f.stage = .staged ∧ eligAt f ≤ s.tm.count then setLine s f.port { line s f.port with idleSince := s.tm.now } else s
/-- The claim of a frame that is not to be sent no longer waits (R214, R260). -/
def dropClaim (s : State) (f : TxFrame) : State := { s with tx := { s.tx with claims := tmap [] (fun _ l => l.filter (· != f.id)) s.tx.claims } }
/-- A frame completes without being sent: its cells stay until its record is written; one that waits for cells holds none. -/
def endUnsent (s : State) (f : TxFrame) (code : BitVec 8) : State :=
  let s := leftUnsent s f
  match f.origin with
  | .csi _ => frameGone s f.id
  | _ =>
    let none_ := f.stage == .claiming || f.stage == .atDoor
    finishFrame (setFrame (dropClaim s f) { f with stage := .ended, cells := if none_ then 0 else f.cells, cells0 := if none_ then 0 else f.cells0 }) f (frameRec s f code false)
/-- `FRAME_DATA_READ_ERROR` (R459). -/
def frameDataReadError (fid : Nat) (s : State) : State :=
  match txFrame s fid with
  | none => s
  | some f => if f.stage = .reading then endUnsent (raise (cntBank s f.bobbin 2 1) (bobGroup f.bobbin) 2) f kMALFORMED_ADDRESS else s
def execFrameDataReadError (fid : Nat) (s : State) : Host.Outcome State Fault Refusal := event (frameDataReadError fid s)

/-! ### The finished frame -/
def vlanTags (s : State) (p cls : Nat) (P : TagProfile) : Octets :=
  let tci0 := if P.pcpFromClass then P.tci0.toNat % 2 ^ 13 + (cls % 8) * 2 ^ 13 else P.tci0.toNat
  (if 1 ≤ P.count then be 2 (tpidVal s p P.tpid0) ++ be 2 tci0 else []) ++
  (if 2 ≤ P.count then be 2 (tpidVal s p P.tpid1) ++ be 2 P.tci1.toNat else []) ++
  (if 3 ≤ P.count then be 2 (tpidVal s p P.tpid2) ++ be 2 P.tci2.toNat else [])
def pad60 (o : Octets) : Octets := o ++ List.replicate (60 - o.length) 0
/-- The frame of R30 without its FCS, tagged and numbered `seq` (R47, R109, R110). -/
def buildFrame (s : State) (p cls : Nat) (P : TagProfile) (seq : Nat) (data : Octets) : Octets :=
  let head := data.take 12 ++ vlanTags s p cls P
  let rest := data.drop 12
  let R := (pset s p).rx
  match P.redKind with
  | 1 => pad60 (head ++ be 2 0xF1C1 ++ be 2 0 ++ be 2 seq ++ rest)
  | 2 =>
    let o := pad60 (head ++ be 2 0x892F ++ be 2 0 ++ be 2 seq ++ rest)
    patch o (head.length + 2) (be 2 (R.path * 4096 + (o.length - (head.length + 2)) % 4096))
  | 3 =>
    let o := pad60 (head ++ rest)
    let start := skipVlan (vlanSet s p) o o.length 12
    o ++ be 2 seq ++ be 2 (R.lan * 4096 + (o.length + 6 - start) % 4096) ++ be 2 0x88FB
  | _ => pad60 (head ++ rest)
/-- Sequence number of a frame that starts now, and the stream's state after it (R112, R113). -/
def takeSeq (s : State) (P : TagProfile) (given : Nat) : Nat × State :=
  if P.redKind = 0 then (0, s)
  else
    let S := strm s P.stream
    let s := cntStream s P.stream 0 1
    if S.genDesc then (given, s) else (S.genSeq.toNat, setStrm s P.stream { S with genSeq := S.genSeq + 1 })
/-- One-step correction (R95 to R98): the frame, and whether it was updated. `w` is the value of an ORIGIN sum that leaves
the field's range, which the spec does not state. -/
def oneStepMatch (T : OneStep) (o : Octets) : Bool :=
  T.enable && decide (T.matchOffset + 2 ≤ o.length) && octBe o T.matchOffset 2 == T.matchValue.toNat &&
  T.typeMask.toNat.testBit (oct o T.ptpOffset % 16) && oct o (T.ptpOffset + 1) % 16 == 2 && decide (T.ptpOffset + 44 ≤ o.length)
/-- The checksum at `c` adjusted for the words that changed (R98). -/
def udpAdjust (c : Nat) (old new : Octets) : Octets :=
  if c = 0 ∨ octBe old c 2 = 0 then new
  else
    let words := (List.range ((old.length + 1) / 2)).map (fun i => 2 * i + c % 2)
    let sum := words.foldl (fun a i => if octBe old i 2 = octBe new i 2 then a else a + (0xFFFF - octBe old i 2) + octBe new i 2) (0xFFFF - octBe old c 2)
    patch new c (be 2 (0xFFFF - foldCarry sum))
def oneStepApply (T : OneStep) (t : T96) (w : Nat) (o : Octets) : Octets × Bool :=
  let q := T.ptpOffset
  let corr := sgn 64 (octBe o (q + 8) 8)
  if T.residence then
    let ing := octBe o (q + 16) 4
    if 999999999 < ing then (o, false)
    else
      let sum := corr + ((t.ns + 1000000000 - ing) % 1000000000 * 65536 + t.frac : Nat)
      let n := patch (patch o (q + 8) (be 8 (ofInt 64 (min sum 9223372036854775807)).toNat)) (q + 16) (be 4 0)
      (udpAdjust T.udpCsum o n, true)
  else
    let sum := corr + (t.frac : Int)
    let v := if 9223372036854775807 < sum then w else (ofInt 64 sum).toNat
    let n := patch (patch (patch o (q + 34) (be 6 t.sec)) (q + 40) (be 4 t.ns)) (q + 8) (be 8 v)
    (udpAdjust T.udpCsum o n, true)
def oneStep (s : State) (p : Nat) (t : T96) (o : Octets) : Octets × Bool :=
  match (List.range 4).find? (fun i => oneStepMatch (tget {} (pset s p).oneStep i) o) with
  | some i => oneStepApply (tget {} (pset s p).oneStep i) t (Config.freeWord s.tm.free).toNat o
  | none => (o, false)

/-! ### Whorl: candidates (R253, R254, R261) -/
def octetNs (s : State) (p n : Nat) : Nat := ceilDiv (n * 8000) (curRate s p)
def preemptOn (s : State) (p : Nat) : Bool := (pset s p).line.preempt != .off
def preemptActive (s : State) (p : Nat) : Bool := (line s p).verify == .active
def waiting (f : TxFrame) : Bool := f.stage == .claiming || f.stage == .reading || f.stage == .staged || f.stage == .atDoor
def skeinOpen (s : State) (k : Nat) : Bool := (skein s k).valid && (skein s k).enable
/-- The decision considers frame `f`, leaving its class's hold aside. -/
def candBase (s : State) (f : TxFrame) : Bool := f.stage == .staged && decide (eligAt f + 40 ≤ s.tm.count) && skeinOpen s f.skein
def notHeld (s : State) (p cls : Nat) : Bool := !(line s p).held.toNat.testBit cls
/-- Member of a skein's round robin (R264): the bobbin, 262,144 for demoted frames, above it the core stream interfaces. -/
def member (f : TxFrame) : Nat := match f.origin with | .demoted => 262144 | .csi k => 262145 + k | _ => f.bobbin
/-- Earliest frame of `l` that has not been selected, by number. -/
def headOf (l : List TxFrame) : Option TxFrame := l.foldl (fun a f => match a with | none => some f | some g => if f.id < g.id then some f else some g) none
def waitingOf (s : State) (p : Nat) : List TxFrame := s.tx.frames.filter (fun f => f.port == p && waiting f)
def dedup (l : List Nat) : List Nat := l.foldl (fun a x => if a.contains x then a else a ++ [x]) []
/-- Head frames of contracted bobbins. -/
def contractedHeads (s : State) (p : Nat) : List TxFrame :=
  let l := (waitingOf s p).filter (fun f => f.origin == .accepted)
  (dedup (l.map (·.bobbin))).filterMap (fun b => headOf (l.filter (fun f => f.bobbin == b)))
/-- Head frames of the members of skein `k` that carry no promise. -/
def skeinHeads (s : State) (p k : Nat) : List TxFrame :=
  let l := (waitingOf s p).filter (fun f => f.origin != .accepted && f.skein == k)
  (dedup (l.map member)).filterMap (fun m => headOf (l.filter (fun f => member f == m)))
/-- R38 holds frame `f` back: a long best-effort frame, preemption enabled and not active, a contract on the port. -/
def heldLong (s : State) (p : Nat) (f : TxFrame) : Bool :=
  decide (f.cls < 8) && decide (123 < f.len) && preemptOn s p && !preemptActive s p && s.ct.tab.any (fun e => e.2.st != .free && e.2.img.port == p)
def deadlineSlot (f : TxFrame) : Nat := (f.start + f.bound) / 8
/-- Tier 2 order (R262). -/
def before2 (a b : TxFrame) : Bool :=
  decide (deadlineSlot a < deadlineSlot b) || (deadlineSlot a == deadlineSlot b && (decide (b.cls < a.cls) || (a.cls == b.cls && decide (a.contract < b.contract))))
def best2 (l : List TxFrame) : Option TxFrame := l.foldl (fun a f => match a with | none => some f | some g => if before2 f g then some f else some g) none
def tier2 (s : State) (p : Nat) : Option TxFrame := best2 ((contractedHeads s p).filter (fun f => candBase s f && notHeld s p f.cls))
/-- The next of `l` after `last` in a round robin over rising numbers. -/
def rrNext (last : Option Nat) (l : List Nat) : Option Nat :=
  let least := fun (m : List Nat) => m.foldl (fun (a : Option Nat) x => match a with | none => some x | some y => some (min x y)) none
  match last with
  | some n => match least (l.filter (fun x => decide (n < x))) with | some x => some x | none => least l
  | none => least l
def okHeads (s : State) (p k : Nat) : List TxFrame := (skeinHeads s p k).filter (fun f => candBase s f && !heldLong s p f)
def lastMember (s : State) (p k : Nat) : Option Nat := match tget 0 (line s p).rrSkein k with | 0 => none | n + 1 => some n
/-- `next_frame` of R264. -/
def nextFrame (s : State) (p k : Nat) : Option TxFrame :=
  let l := okHeads s p k
  match rrNext (lastMember s p k) (l.map member) with
  | some m => l.find? (fun f => member f == m)
  | none => none
/-- Skeins of the port whose frames wait, in rising number. -/
def portSkeins (s : State) (p : Nat) (express : Bool) : List Nat :=
  (s.skn.tab.filter (fun e => e.2.valid && e.2.port == p && (decide (8 ≤ e.2.cls) == express))).map Prod.fst
def tier3 (s : State) (p : Nat) : Option TxFrame :=
  if (pset s p).line.xo then
    let ks := (portSkeins s p true).filter (fun k => notHeld s p (skein s k).cls && !(okHeads s p k).isEmpty)
    match rrNext (match tget 0 s.skn.lastExpress p with | 0 => none | n + 1 => some n) ks with
    | some k => nextFrame s p k
    | none => none
  else none

/-! ### Whorl: deficit round robin (R263) -/
/-- The ring of port `p` brought up to date: skeins that left or joined. -/
def drrSync (s : State) (p : Nat) : State :=
  let act := (portSkeins s p false).filter (fun k => (skein s k).enable && notHeld s p (skein s k).cls && !(okHeads s p k).isEmpty)
  let ring := tget [] s.skn.ring p
  let gone := ring.filter (fun k => !act.contains k && (okHeads s p k).isEmpty)
  let joined := act.filter (fun k => !ring.contains k)
  let s := gone.foldl (fun s k => setSkein s k { skein s k with deficit := 0 }) s
  let s := joined.foldl (fun s k => setSkein s k { skein s k with fresh := true }) s
  { s with skn := { s.skn with ring := tset [] s.skn.ring p (ring.filter act.contains ++ joined) } }
/-- The loop of R263; `fuel` covers every round that a legal quantum can need. -/
def drrLoop (p : Nat) : Nat → State → Option TxFrame × State
  | 0, s => (none, s)
  | n + 1, s =>
    match tget [] s.skn.ring p with
    | [] => (none, s)
    | k :: t =>
      let K := skein s k
      let K := if K.fresh then { K with deficit := K.deficit + K.quantum, fresh := false } else K
      match nextFrame s p k with
      | none => (none, s)
      | some f =>
        if f.len + 20 ≤ K.deficit then
          let more := !(okHeads (setFrame s { f with stage := .sending }) p k).isEmpty
          if more then (some f, setSkein s k { K with deficit := K.deficit - (f.len + 20) })
          else (some f, { setSkein s k { K with deficit := 0 } with skn := { (setSkein s k { K with deficit := 0 }).skn with ring := tset [] s.skn.ring p t } })
        else
          let s := setSkein s k { K with fresh := true }
          drrLoop p n { s with skn := { s.skn with ring := tset [] s.skn.ring p (t ++ [k]) } }
def drrSelect (s : State) (p : Nat) : Option TxFrame × State :=
  let s := drrSync s p
  drrLoop p (260 * (tget [] s.skn.ring p).length + 1) s

/-! ### Starting a frame -/
/-- Frame `f` starts: it is built and given to the MAC (R30, R113, R138, R255). -/
def startFrame (s : State) (p : Nat) (f : TxFrame) : State :=
  let P := txProfile s p (dfl f.desc 88 4)
  let (seq, s) := takeSeq s P (dfl f.desc 128 16)
  let o := buildFrame s p f.cls P seq f.data
  let i3 := dbit f.desc 83
  let i4 := dbit f.desc 84
  let t := template s (sliceOf p) (dfl f.desc 96 6)
  let base := (findL3 (vlanSet s p) [0xF1C1, 0x892F] 0 o).base
  let (o, lc, we, skipped) := if i3 || i4 then txChecksums t base i3 i4 o else (o, false, false, 0)
  let s := if skipped = 0 then s else cntSlice s (sliceOf p) 11 skipped
  let s := setFrame s { f with stage := .sending, built := o ++ fcsOf o, csumFlags := BitVec.ofNat 6 (b2n we + b2n lc * 4) }
  let L := line s p
  let at_ := max s.tm.now L.txEnd
  let sk := if f.origin = .accepted then s.skn.lastExpress else if 8 ≤ f.cls then tset 0 s.skn.lastExpress p (f.skein + 1) else s.skn.lastExpress
  let rr := if f.origin = .accepted then L.rrSkein else tset 0 L.rrSkein f.skein (member f + 1)
  let s := setLine s p { L with tx := .frame f.id, txAt := at_, txEnd := at_ + octetNs s p (f.len + 20), rrSkein := rr, cutAsked := false, pointDone := false
                                shed := { L.shed with octets := L.shed.octets + f.len + 20 } }
  { s with skn := { s.skn with lastExpress := sk } }
/-- The suspended frame resumes (R265). -/
def resumeFrame (s : State) (p : Nat) (f : TxFrame) : State :=
  let L := line s p
  let at_ := max s.tm.now L.txEnd
  let s := setFrame s { f with stage := .sending }
  setLine s p { L with tx := .frame f.id, suspended := none, txAt := at_, txEnd := at_ + octetNs s p (f.len - f.sent + 20), cutAsked := false }
/-- Frames that R38 holds back are counted once each, however often they are held (R38, R65). -/
def noteHeldLong (s : State) (p : Nat) : State :=
  let l := ((portSkeins s p false).flatMap (skeinHeads s p)).filter (fun f => candBase s f && heldLong s p f)
  if l.isEmpty then s
  else
    let L := line s p
    let new := l.filter (fun f => !L.beHeld.contains f.id)
    let kept := L.beHeld.filter (fun i => (txFrame s i).isSome)
    let s := cntPort (setLine s p { L with beHeld := kept ++ new.map (·.id), beHeldEvt := true }) p 95 new.length
    raiseIf (!L.beHeldEvt) s p 5
/-- Earliest instant of the next own control frame (R46). -/
def ownReady (s : State) (p : Nat) : Bool :=
  match (line s p).ownAt with | none => true | some t => decide (t + octetNs s p 4096 ≤ s.tm.now)
def preemptable (s : State) (fid : Nat) : Bool := match txFrame s fid with | some f => decide (f.cls < 8) | none => false
/-- Something waits for the port to send (R52). -/
def wantsSend (s : State) (p : Nat) : Bool :=
  let L := line s p
  s.tx.frames.any (fun f => f.port == p && f.stage == .staged && decide (eligAt f ≤ s.tm.count)) || !L.own.isEmpty || decide (0 < L.respondDue) || L.verifyDue
/-- Leave low-power idle: TW begins (R52). -/
def lpiLeave (s : State) (p : Nat) : State :=
  let L := line s p
  cntTime (setLine s p { L with lpi := false, waking := true, lpiAt := s.tm.now }) p 51 (s.tm.now - L.lpiAt)
/-- The shedding message READY (R55). -/
def isReady : OwnFrame → Bool
  | .shed o => oct o 18 == 5
  | _ => false
/-- The suspended frame `f` was suspended when a control frame loaded its class's timer, which still runs (R41). -/
def parked (s : State) (p : Nat) (f : TxFrame) : Bool :=
  decide (s.tm.now < tget 0 (line s p).holdEnd f.cls) && !(line s p).armed.contains (f.cls, f.id)
/-- Put a T96 at octet `at_` of a stack frame and make its FCS again (R426). -/
def stampAt (o : Octets) (at_ : Nat) (t : T96) : Octets := let b := (patch o at_ (t96wire t)).take 60; b ++ fcsOf b
/-- TIME and DELAY_RESP carry the T96 of their own time-stamp point, written on transmit (R426). -/
def stampOwn (t : T96) : OwnFrame → OwnFrame
  | .time o => .time (stampAt o 26 t)
  | .stack o => .stack (if oct o 18 = 4 then stampAt o 40 t else o)
  | f => f
/-- A control frame of the block's own starts: 84 octet-times (R46). -/
def startOwn (s : State) (p : Nat) (f : OwnFrame) (rest : List OwnFrame) : State :=
  let L := line s p
  let at_ := max s.tm.now L.txEnd
  setLine s p { L with own := rest, ownAt := some at_, tx := .own f, pointDone := false, txAt := at_, txEnd := at_ + octetNs s p 84
                       shed := { L.shed with octets := L.shed.octets + 84, doneDue := false } }
/-- A verify or respond mPacket starts (R37). -/
def startMpacket (s : State) (p : Nat) (respond : Bool) : State :=
  let L := line s p
  let at_ := max s.tm.now L.txEnd
  setLine s p { L with respondDue := if respond then L.respondDue - 1 else L.respondDue, verifyDue := respond && L.verifyDue
                       tx := .mpacket respond, txAt := at_, txEnd := at_ + octetNs s p 84 }
/-- `WHORL_DECISION` (R254, R261 to R267, R478). After a change of width DONE comes before everything else (R55). -/
def whorlDecision (p : Nat) (s : State) : State :=
  let L := line s p
  if L.up = false ∨ L.shed.st = .switching ∨ L.waking ∨ s.pw.softHold ∨ isOn s (dMS (sliceOf p)) = false then s
  else if L.lpi then (if wantsSend s p then lpiLeave s p else s)
  else match L.tx with
  | .idle =>
    let s := noteHeldLong s p
    let L := line s p
    if L.shed.doneDue then (match L.own with | f :: t => if ownReady s p then startOwn s p f t else s | [] => s)
    else if 0 < L.respondDue then startMpacket s p true
    else if L.verifyDue then startMpacket s p false
    else match (if ownReady s p then L.own else []) with
    | f :: t => startOwn s p f t
    | [] =>
      match tier2 s p with
      | some f => startFrame s p f
      | none => match tier3 s p with
        | some f => startFrame s p f
        | none => match L.suspended with
          | some fid => match txFrame s fid with
            | some f => if notHeld s p f.cls && !parked s p f then resumeFrame s p f else s
            | none => s
          | none => match drrSelect s p with
            | (some f, s) => startFrame s p f
            | (none, s) => s
  | .frame fid =>
    if preemptable s fid && preemptActive s p && ((tier2 s p).isSome || (tier3 s p).isSome) && !L.cutAsked then setLine s p { L with cutAsked := true, cutAt := s.tm.now } else s
  | _ => s
def execWhorlDecision (p : Nat) (s : State) : Host.Outcome State Fault Refusal := event (whorlDecision p s)
/-- An entry of the calendar: its kind, its slot and its frame (R256). -/
structure CalEntry where
  release : Bool
  slot : Nat
  fid : Nat
deriving DecidableEq, Repr
/-- The entries that the Whorl of port `p` holds: one for the release of each proofing frame, one for the deadline of the head frame of
each contracted bobbin. They are as many as frames that the slice's proof store holds, at most twice over, so there is always room. -/
def calEntries (s : State) (p : Nat) : List CalEntry :=
  ((waitingOf s p).filter (fun f => f.origin == .accepted && decide (s.tm.count < f.start))).map (fun f => { release := true, slot := f.start / 8, fid := f.id }) ++
  (contractedHeads s p).map (fun f => { release := false, slot := deadlineSlot f, fid := f.id })
/-- The ring covers 4,096 slots from the current one; what lies beyond waits in the far tier (R256). The order of selection never
depends on the tier. -/
def farTier (s : State) (p : Nat) : List CalEntry := (calEntries s p).filter (fun e => decide ((line s p).cur + 4096 ≤ e.slot))
def ringAt (s : State) (p j : Nat) : List CalEntry :=
  (calEntries s p).filter (fun e => decide (e.slot < (line s p).cur + 4096) && e.slot % 4096 == j)
/-- `CALENDAR_SLOT_BOUNDARY`: the ring's window moves on, over what `farTier` held for its last slot (R256); a proofing frame whose
release nears wakes the port (R52, R257). -/
def calendarSlotBoundary (p : Nat) (s : State) : State :=
  let L := line s p
  let cur := s.tm.count / 8
  if isOn s (dMS (sliceOf p)) = false ∨ cur ≤ L.cur then s
  else
    let s := setLine s p { L with cur := cur }
    let near := s.tx.frames.any (fun f => f.port == p && f.origin == .accepted && waiting f && decide (s.tm.count < f.start) && decide (f.start ≤ s.tm.count + 5000))
    if L.lpi && near then lpiLeave s p else s
def execCalendarSlotBoundary (p : Nat) (s : State) : Host.Outcome State Fault Refusal := event (calendarSlotBoundary p s)

/-! ### Cuts, stamps and ends -/
def tsqMark (s : State) (p fid : Nat) (f : TsqEntry → TsqEntry) : State :=
  let L := line s p
  setLine s p { L with tsq := L.tsq.map (fun e => if e.fid = fid then f e else e) }
/-- Octets of frame content that the present fragment has on the medium `ns` nanoseconds after its preamble began. -/
def contentAfter (s : State) (p ns : Nat) : Nat := ns * curRate s p / 8000 - 8
/-- The first octet boundary that R35 allows after the cut was asked for in nanosecond `cutAt`, and no later: at least 60 octets of the
fragment, and what had gone when the decision asked. -/
def cutPlace (s : State) (p sent : Nat) (f : TxFrame) : Bool :=
  let L := line s p
  let n := sent - f.sent
  decide (f.sent + 60 ≤ sent) && decide (max 60 (contentAfter s p (L.cutAt - L.txAt)) ≤ n) && decide (n ≤ max 60 (contentAfter s p (L.cutAt + 1 - L.txAt) + 1)) &&
  decide (n ≤ contentAfter s p (s.tm.now + 1 - L.txAt))
/-- `PREEMPTION_CUT` after `sent` octets of content in all (R35, R267). -/
def preemptionCut (p sent : Nat) (s : State) : State :=
  let L := line s p
  match L.tx with
  | .frame fid =>
    match txFrame s fid with
    | some f =>
      if L.cutAsked ∧ f.stampDone ∧ f.cls < 8 ∧ preemptActive s p ∧ cutPlace s p sent f ∧ sent + 64 ≤ f.len then
        let s := cntPort s p 47 1
        let s := if f.fragments = 0 then cntPort s p 48 1 else s
        let s := setFrame s { f with stage := .suspended, sent := sent, fragments := f.fragments + 1 }
        let s := tsqMark s p fid (fun e => { e with preempted := true })
        setLine s p { line s p with tx := .idle, suspended := some fid, cutAsked := false, txEnd := s.tm.now + octetNs s p 16 }
      else s
    | none => s
  | _ => s
def execPreemptionCut (p sent : Nat) (s : State) : Host.Outcome State Fault Refusal := event (preemptionCut p sent s)
/-- The frame takes its stamp, and the one-step correction that it carries (R80, R95 to R99). -/
def takeStamp (s : State) (p : Nat) (f : TxFrame) (x : LaneStamp) : TxFrame × State :=
  let (t, s) := stampPoint s p true x
  let body := f.built.take (f.built.length - 4)
  let (o, one) := if dbit f.desc 82 then oneStep s p t body else (body, false)
  ({ f with built := o ++ fcsOf o, stamp := t, quality := nowQ s, oneStep := one }, if one then cntPort { s with tm := { s.tm with free := s.tm.free + 1 } } p 94 1 else s)
/-- The stamp of a DELAY_REQ that stack port `p` sends is its t1 (R434). -/
def noteReq (s : State) (p : Nat) (t : T96) : OwnFrame → State
  | .stack o =>
    if oct o 18 = 3 then { s with stk := { s.stk with link := tset {} s.stk.link (32 + p) { tget {} s.stk.link (32 + p) with t1 := (t96n t : Nat) } } } else s
  | _ => s
/-- `TX_TIME_STAMP_POINT` of the frame in transmission: stamp, queue entry, residence, lateness (R78, R86, R232 to R237); a control frame of the
block's own that carries its stamp takes it (R426). -/
def txTimeStampPoint (p : Nat) (x : LaneStamp) (s : State) : State :=
  match (line s p).tx with
  | .frame fid =>
    match txFrame s fid with
    | some f =>
      if f.stampDone ∨ s.tm.now < (line s p).txAt then s
      else
        let (f, s) := takeStamp s p f x
        let s := if dbit f.desc 81 then tsqPush s p { fid := fid, id := BitVec.ofNat 16 (dfl f.desc 112 16), quality := f.quality, oneStep := f.oneStep, preempted := false, aborted := false, t := f.stamp } else s
        if f.origin = .accepted then
          let r := max 0 ((accOf s f.stamp - f.startAcc) / 65536)
          let s := noteResidence s false p f.contract f.bound r.toNat f.stamp
          if (f.bound : Int) < r then
            let k := lateCause s false p (frameDoms s p f.bobbin ++ psDoms p f.cells f.cells0) (contr s f.contract) f.start
            setFrame s { f with stampDone := true, residence := r, exceeded := true, late := k }
          else setFrame s { f with stampDone := true, residence := r }
        else setFrame s { f with stampDone := true }
    | none => s
  | .own g =>
    if (line s p).pointDone ∨ s.tm.now < (line s p).txAt then s
    else
      let (t, s) := stampPoint s p true x
      noteReq (setLine s p { line s p with tx := .own (stampOwn t g), pointDone := true }) p t g
  | _ => s
def execTxTimeStampPoint (p : Nat) (x : LaneStamp) (s : State) : Host.Outcome State Fault Refusal := event (txTimeStampPoint p x s)
/-- Index of the size bin of `n` octets (R62); fewer than 64 octets go to the first bin, which the spec leaves open (log 90). -/
def sizeBin (n : Nat) : Nat := if n ≤ 64 then 0 else if n ≤ 127 then 1 else if n ≤ 255 then 2 else if n ≤ 511 then 3 else if n ≤ 1023 then 4 else if n ≤ 1518 then 5 else 6
/-- 0 unicast, 1 multicast, 2 broadcast. -/
def daKind (o : Octets) : Nat := if octBe o 0 6 = 2 ^ 48 - 1 then 2 else oct o 0 % 2
def countTx (s : State) (p n kind : Nat) : State := cntPort (cntPort (cntPort (cntPort s p 33 n) p 34 1) p (35 + kind) 1) p (40 + sizeBin n) 1
/-- Octets of an own control frame's destination, for its counter. -/
def countOwn (s : State) (p : Nat) : OwnFrame → State
  | .pause _ => cntPort (countTx s p 64 1) p 38 1
  | .pfc en q => (List.range 8).foldl (fun s i => if en.toNat.testBit i && ((q[i]?).getD 0) != 0 then cntPort s p (85 + i) 1 else s) (cntPort (countTx s p 64 1) p 39 1)
  | .shed _ => cntPort (countTx s p 64 1) p 49 1
  | _ => countTx s p 64 1
/-- Preemption that software disabled ends with the frame in transmission and any suspended one (R302). -/
def preemptEnd (s : State) (p : Nat) (L : Line) : Line :=
  if !preemptOn s p && L.tx == .idle && L.suspended.isNone then { L with verify := .idle, verifyDue := false, beHeldEvt := false } else L
/-- The transmitter of port `p` is free; READY was the last frame at the old width, and the port switches (R59, R61). -/
def txIdle (s : State) (p : Nat) (switch : Bool) : State :=
  let L := preemptEnd s p { line s p with tx := .idle, idleSince := s.tm.now, cutAsked := false }
  setLine s p (if switch && L.shed.readyDue then { L with shed := { L.shed with st := .switching, readyDue := false, readySent := true, since := s.tm.now } } else L)
/-- The time-stamp point of what is in transmission has passed; an mPacket has none (R78). -/
def pointPassed (s : State) (p : Nat) : Bool :=
  match (line s p).tx with
  | .frame fid => match txFrame s fid with | some f => f.stampDone | none => true
  | .own _ => (line s p).pointDone
  | _ => true
/-- The port's own address. -/
def macOf (s : State) (p : Nat) : BitVec 48 := match pdef s p with | some d => d.mac | none => 0
/-- A loopback of the port is on: what it sends comes back to it, in place of what its partner sends (R332, log 67). -/
def looped (s : State) (p : Nat) : Bool := tget 0 s.tst.loop p != 0
/-- The octets of a control frame of the block's own (R38, R39, R54). -/
def ownOctets (s : State) (p : Nat) : OwnFrame → Octets
  | .pause q => let o := pad60 (be 6 0x0180C2000001 ++ be 6 (macOf s p).toNat ++ be 2 0x8808 ++ be 2 1 ++ be 2 q.toNat); o ++ fcsOf o
  | .pfc en q =>
    let o := pad60 (be 6 0x0180C2000001 ++ be 6 (macOf s p).toNat ++ be 2 0x8808 ++ be 2 0x101 ++ be 2 en.toNat ++ (List.range 8).flatMap (fun i => be 2 ((q[i]?).getD 0).toNat))
    o ++ fcsOf o
  | .shed o | .heartbeat o | .time o | .stack o => o
/-- What has been sent in loopback waits to come back. -/
def echoTx (s : State) (p : Nat) (e : Echoed) : State := if looped s p then setLine s p { line s p with echo := (line s p).echo ++ [e] } else s
/-- `TRANSMISSION_END` of port `p`, once the medium has taken every octet (R231, R255, R260). -/
def transmissionEnd (p : Nat) (s : State) : State :=
  let L := line s p
  if s.tm.now < L.txEnd ∨ pointPassed s p = false then s
  else match L.tx with
  | .frame fid =>
    let s := txIdle (setLine s p { L with armed := L.armed.filter (fun e => e.2 != fid) }) p false
    match txFrame s fid with
    | some f =>
      let s := cntPort (countTx (echoTx s p (.frame f.built { fragments := if f.fragments = 0 then 0 else f.fragments + 1 })) p f.len (daKind f.built)) p (61 + f.cls) 1
      let s := if 0 < f.fragments then cntPort s p 47 1 else s
      let s := if f.exceeded then noteLate s false p f.contract f.late else s
      let s := releaseCells s f
      let f := { f with stage := .ended, cells := 0, cells0 := 0 }
      let s := setFrame s f
      (match f.origin with
       | .csi _ => frameGone s fid
       | _ => finishFrame s f (frameRec s f (f.late.getD kOK) true))
    | none => s
  | .own f => countOwn (echoTx (txIdle s p (isReady f)) p (.frame (ownOctets s p f) {})) p f
  | .mpacket r => echoTx (txIdle s p false) p (.mpacket r)
  | .idle => s
def execTransmissionEnd (p : Nat) (s : State) : Host.Outcome State Fault Refusal := event (transmissionEnd p s)

/-! ### A port goes down (R29, R236, R390) -/
def insertById (f : TxFrame) : List TxFrame → List TxFrame
  | [] => [f]
  | g :: t => if f.id < g.id then f :: g :: t else g :: insertById f t
/-- Accepted frames of the port complete with `code`, in ring order. -/
def failAccepted (s : State) (p : Nat) (code : BitVec 8) (q : TxFrame → Bool) : State :=
  let l := (s.tx.frames.filter (fun f => f.port == p && f.origin == .accepted && (f.stage == .reading || f.stage == .staged) && q f)).foldl (fun a f => insertById f a) []
  l.foldl (fun s f => endUnsent (noteLate s false p f.contract (some code)) f code) s
/-- The frame in transmission, or the suspended one, is stopped. Its record has the stamp that it took (R236), unless its cells are lost (R390). -/
def stopFrame (s : State) (p fid : Nat) (code : BitVec 8) (stamped : Bool := true) : State :=
  match txFrame s fid with
  | none => s
  | some f =>
    let s := tsqMark (cntPort s p cTX_ABORTED 1) p fid (fun e => { e with aborted := true })
    let s := match f.origin with | .accepted => noteLate s false p f.contract (some code) | .csi _ => s | _ => cntPort s p cTX_LATE 1
    match f.origin with
    | .csi _ => frameGone s fid
    | _ => finishFrame (setFrame s { f with stage := .ended }) f (frameRec s f code (stamped && f.stampDone))
/-- The transmit core stream frames that wait for the port are discarded (R457). -/
def csiDiscard (s : State) (p : Nat) : State :=
  (s.tx.frames.filter (fun f => f.port == p && waiting f)).foldl
    (fun s f => match f.origin with | .csi k => frameGone (cntCsi s k 3 1) f.id | _ => s) s
/-- Every domain of R13 for the port is ON. -/
def portReady (s : State) (p : Nat) : Bool :=
  match pdef s p with | some d => (portDomains p d.width (s.port.starterPort.toNat.testBit p)).all (isOn s) | none => false
/-- The frame in transmission, a control frame of the block's own too, and the suspended one are stopped. -/
def stopSent (s : State) (p : Nat) (code : BitVec 8) : State :=
  match (line s p).tx with | .frame f => stopFrame s p f code | .own _ => cntPort s p cTX_ABORTED 1 | _ => s
def stopSuspended (s : State) (p : Nat) (code : BitVec 8) : State :=
  match (line s p).suspended with | some f => stopFrame s p f code | none => s
/-- A low-power idle that ends with the link (R62). -/
def lpiTime (s : State) (p : Nat) : State := if (line s p).lpi then cntTime s p 51 (s.tm.now - (line s p).lpiAt) else s
/-- What the frames of a port that goes down become (R29, R236, R457). -/
def stopAll (s : State) (p : Nat) (code : BitVec 8) : State :=
  csiDiscard (failAccepted (stopSuspended (stopSent (raise (cntPort (lpiTime s p) p cLINK_DOWNS 1) p 1) p code) p code) p code (fun _ => true)) p
/-- The port's rate becomes `new` Mb/s: what is left of each hold timer, counted in bit times, lasts at that rate (R40). -/
def rescaleHolds (s : State) (p new : Nat) (L : Line) : Line :=
  let old := curRate s p
  if old = new then L
  else
    let left := fun (cl : Nat) => let e := tget (0, 0) L.holdBits cl; e.1 - (s.tm.now - e.2) * old
    let on := (List.range 16).filter (fun cl => decide (s.tm.now < tget 0 L.holdEnd cl))
    { L with holdBits := on.foldl (fun t cl => tset (0, 0) t cl (left cl, s.tm.now)) L.holdBits
             holdEnd := on.foldl (fun t cl => tset 0 t cl (s.tm.now + ceilDiv (left cl) new)) L.holdEnd }
/-- Port `p` goes down; `code` is `LATE_LINK_DOWN`, or `LATE_POWER` when a domain of R13 lost power. -/
def portGoesDown (s : State) (p : Nat) (code : BitVec 8) : State :=
  if (line s p).up then
    let s := stopAll s p code
    let L := line s p
    let retrain := isEnabled s p && !s.port.downing.toNat.testBit p && portReady s p
    let L := match pdef s p with | some d => rescaleHolds s p (rateOf d d.width) L | none => L
    setLine s p { L with
      up := false, locked := false, lockAt := s.tm.now, tx := .idle, echo := [], suspended := none, cutAsked := false, txEnd := s.tm.now, width := 0, armed := []
      verify := .idle, verifyDue := false, respondDue := 0, beHeldEvt := false, lpi := false, waking := false
      training := if retrain then .running else .idle, laneDone := []
      shed := { L.shed with st := .full, prev := .full, initiator := false, readyDue := false, doneDue := false, lowWindows := 0, octets := 0 } }
  else s

end Sys2Proof.Machine
end

