-- ==== Sys2Proof/Machine/Xoff.lean ====
section
/-! DEFINITION. Control frames of the block's own (R46), and the pause and PFC that the block sends (R45). -/
namespace Sys2Proof.Machine

/-- A later PFC frame joins a held one. -/
def mergePfc (en0 : BitVec 8) (q0 : List (BitVec 16)) (en1 : BitVec 8) (q1 : List (BitVec 16)) : OwnFrame :=
  .pfc (en0 ||| en1) ((List.range 8).map (fun i => if en1.toNat.testBit i then (q1[i]?).getD 0 else (q0[i]?).getD 0))
/-- Put a frame among those held back, under the supersession rules. A merged PFC frame keeps the older one's place, which the spec leaves
open (log 91). -/
def ownAdd (f : OwnFrame) (l : List OwnFrame) : List OwnFrame :=
  match f with
  | .pause _ => l.filter (fun g => match g with | .pause _ => false | _ => true) ++ [f]
  | .heartbeat _ => l.filter (fun g => match g with | .heartbeat _ => false | _ => true) ++ [f]
  | .time _ => l.filter (fun g => match g with | .time _ => false | _ => true) ++ [f]
  | .pfc en q =>
    match l.find? (fun g => match g with | .pfc _ _ => true | _ => false) with
    | some (.pfc en0 q0) => l.map (fun g => match g with | .pfc _ _ => mergePfc en0 q0 en q | g => g)
    | _ => l ++ [f]
  | _ => l ++ [f]
def sendOwn (s : State) (p : Nat) (f : OwnFrame) : State := setLine s p { line s p with own := ownAdd f (line s p).own }

/-! ### Delivery held back (R45, R455) -/
/-- A received frame of port `p` and class `cl` waits on the core stream interface. -/
def csiHolds (s : State) (p cl : Nat) : Bool :=
  (tget [] s.rx.csi (sliceOf p)).any (fun e => dfl e.2 66 5 == p && dfl e.2 72 4 == cl)
/-- An open receive bobbin with no buffer that a next frame could take. -/
def noBuffers (B : Bobbin) : Bool := B.st == .opened && B.kind == .receive && occOf B.hostIdx B.next (bsize B) == 0
/-- Any receive bobbin of the class has no buffer posted. The bobbins of a class are those of its receive contracts, and those that
ran out of buffers on a frame of the class (log 80). -/
def bobHolds (s : State) (p cl : Nat) : Bool :=
  s.ct.tab.any (fun e => e.2.st == .admitted && e.2.img.rx && e.2.img.port == p && e.2.img.cls == cl &&
    (match e.2.bobbin with | some b => noBuffers (bobn s b) | none => false)) ||
  (line s p).dry.any (fun e => e.1 == cl && noBuffers (bobn s e.2))
def heldBack (s : State) (p cl : Nat) : Bool := csiHolds s p cl || bobHolds s p cl
/-- Send the port's pause frame, or the PFC frame of the class's priority, with time `q`; none in mode NONE. -/
def sendFlow (s : State) (p cl q : Nat) : State :=
  let S := pset s p
  match S.line.fc with
  | .none => s
  | .pause => sendOwn s p (.pause (BitVec.ofNat 16 q))
  | .pfc =>
    let i := bits S.pfcMap.toNat (3 * cl) 3
    sendOwn s p (.pfc (BitVec.ofNat 8 (2 ^ i)) ((List.range 8).map (fun x => if x = i then BitVec.ofNat 16 q else 0)))
def xoffOf (s : State) (p cl : Nat) : XoffState := tget {} (line s p).xoff cl
def setXoff (s : State) (p cl : Nat) (x : XoffState) : State := setLine s p { line s p with xoff := tset {} (line s p).xoff cl x }
/-- The condition of R45 followed for one class: it begins, or it ends and time 0 is sent where XOFF was. -/
def xoffTrack (s : State) (p cl : Nat) : State :=
  let x := xoffOf s p cl
  if heldBack s p cl then (if x.since.isNone then setXoff s p cl { x with since := some s.tm.now } else s)
  else
    let s := if x.sentAt.isSome then sendFlow s p cl 0 else s
    setXoff s p cl {}
/-- Classes of port `p` that R45 names in the generate mask. -/
def xoffTrackAll (s : State) (p : Nat) : State :=
  ((List.range 16).filter (fun cl => (pset s p).genMask.toNat.testBit cl)).foldl (fun s cl => xoffTrack s p cl) s
/-- Ports and classes whose frames bobbin `b` receives, as far as R45 knows them. -/
def bobClasses (s : State) (b : Nat) : List (Nat × Nat) :=
  (List.range 32).flatMap (fun p => ((line s p).dry.filter (fun e => e.2 == b)).map (fun e => (p, e.1))) ++
  ((s.ct.tab.filter (fun e => e.2.st == .admitted && e.2.img.rx && e.2.bobbin == some b)).map (fun e => (e.2.img.port, e.2.img.cls)))
/-- The buffers of a receive bobbin changed: R45 is followed for the classes of `l`, and what has buffers again is no longer dry. -/
def xoffFollow (l : List (Nat × Nat)) (s : State) : State :=
  l.foldl (fun s e =>
    let s := if (pset s e.1).genMask.toNat.testBit e.2 then xoffTrack s e.1 e.2 else s
    setLine s e.1 { line s e.1 with dry := (line s e.1).dry.filter (fun x => noBuffers (bobn s x.2)) }) s
def xoffBob (s : State) (b : Nat) : State := xoffFollow (bobClasses s b) s
/-- A frame of port `p` and class `cl` was delivered to bobbin `b`, which may have no buffer left. -/
def noteDry (s : State) (p cl b : Nat) : State :=
  let L := line s p
  xoffBob (if noBuffers (bobn s b) && !L.dry.contains (cl, b) then setLine s p { L with dry := L.dry ++ [(cl, b)] } else s) b
def mayXoff (s : State) (p cl : Nat) : Bool :=
  (line s p).up && isOn s (dMS (sliceOf p)) && (pset s p).genMask.toNat.testBit cl && (pset s p).line.fc != .none
/-- `XOFF_DELAY_EXPIRY` (R45). -/
def xoffDelayExpiry (p cl : Nat) (s : State) : State :=
  if mayXoff s p cl then
    let s := xoffTrack s p cl
    let x := xoffOf s p cl
    match x.since with
    | some t =>
      if x.sentAt.isNone ∧ t + (pset s p).xoffDelay < s.tm.now then setXoff (sendFlow s p cl 0xFFFF) p cl { x with sentAt := some s.tm.now } else s
    | none => s
  else s
def execXoffDelayExpiry (p cl : Nat) (s : State) : Host.Outcome State Fault Refusal := event (xoffDelayExpiry p cl s)
/-- `XOFF_REPEAT`: half of the sent time has passed (R45). -/
def xoffRepeat (p cl : Nat) (s : State) : State :=
  if mayXoff s p cl then
    let s := xoffTrack s p cl
    let x := xoffOf s p cl
    match x.sentAt with
    | some t => if t + ceilDiv (0xFFFF * 256 * 1000) (curRate s p) ≤ s.tm.now then setXoff (sendFlow s p cl 0xFFFF) p cl { x with sentAt := some s.tm.now } else s
    | none => s
  else s
def execXoffRepeat (p cl : Nat) (s : State) : Host.Outcome State Fault Refusal := event (xoffRepeat p cl s)

end Sys2Proof.Machine
end

