-- ==== Sys2Proof/Machine/BobbinOps.lean ====
section
/-! DEFINITION. Bobbins, data windows, grants, skeins and spread groups: their instructions (R189, R190, R214, R215, R219,
R225, R286, R307 to R312), the doorbell (R192 to R194) and inline push (R208 to R211). -/
namespace Sys2Proof.Machine

def kindNum : BobKind → Nat
  | .none => 0 | .transmit => 1 | .receive => 2 | .completion => 3
def numKind (n : Nat) : BobKind := if n = 1 then .transmit else if n = 2 then .receive else if n = 3 then .completion else .none
def stateNum : BobState → Nat
  | .closed => 0 | .opened => 1 | .draining => 2 | .stale => 3
def entrySize (k : BobKind) : Nat := if k = .receive then 16 else 32
def bobClosed (B : Bobbin) : Bool := B.st == .closed
def bobsAny (s : State) (q : Nat → Bobbin → Bool) : Bool := s.bob.tab.any (fun e => !bobClosed e.2 && q e.1 e.2)

/-! ### `BOBBIN.OPEN`, `BOBBIN.CLOSE`, `BOBBIN.DRAIN` -/
/-- NOTIFY is an operand of KIND 3 only (R188, R291). -/
def useBobbinOpen (c : Cmd) : List (Nat × Nat × Nat) :=
  [(8, 6, 50), (16, 0, if fld c 16 0 2 = 3 then 3 else 2), (17, 0, 8), (18, 0, 6)] ++
  (match fld c 16 0 2 with | 1 => [(19, 0, 8), (20, 0, 18), (24, 0, 12)] | 2 => [(20, 0, 18)] | _ => [])
def bodyBobbinOpen (j : JEntry) (s : State) : StepRes :=
  let c := j.cmd
  let b := objNum c
  let B := bobn s b
  let k := numKind (fld c 16 0 2)
  let size := fld c 17 0 8
  let addr := fld c 8 0 64
  let len := entrySize k * 2 ^ size
  let cb := fld c 20 0 18
  let CB := bobn s cb
  guarded [(B.st == .opened || B.st == .draining, sBUSY),
    (k == .none || decide (size < 3) || decide (15 < size), sBAD_OPERAND), (addr % min 4096 len != 0, sBAD_OPERAND),
    (!inWindow s (fld c 18 0 6) addr len, sBAD_OPERAND),
    (k != .completion && (CB.st != .opened || CB.kind != .completion || (s.stn.exportEn && s.stn.exportBob == cb)), sBAD_OPERAND),
    (k == .transmit && !(skein s (fld c 24 0 12)).valid, sNO_OBJECT)] s
    (stop sDONE (setBob s b { kind := k, st := .opened, sizeLog2 := size, base := BitVec.ofNat 50 (fld c 8 6 50), window := fld c 18 0 6
                              completion := cb, notify := fbit c 16 2, skein := fld c 24 0 12, tol := fld c 19 0 8 }))
def execBobbinOpen (c : Cmd) (s : State) : Host.Outcome State Fault Refusal := instr 0x20 useBobbinOpen bodyBobbinOpen c s

def bodyBobbinClose (j : JEntry) (s : State) : StepRes :=
  let b := objNum j.cmd
  let B := bobn s b
  guarded [(bobClosed B, sDONE_NOTE),
    (if B.kind = .completion then bobsAny s (fun x X => x != b && X.kind != .completion && X.completion == b)
     else !((B.st == .opened || B.st == .stale) && bocc B == 0 && !bobInFlight s b), sBUSY)] s
    (let l := bobClasses s b
     let s := if B.cstate = .bound then setCt s B.contract { contr s B.contract with bobbin := none } else s
     stop sDONE (xoffFollow l (setBob s b { crumbs := B.crumbs })))
def execBobbinClose (c : Cmd) (s : State) : Host.Outcome State Fault Refusal := instr 0x21 useNone bodyBobbinClose c s

/-- Indices from `i` up to `e`, modulo `m`. -/
def idxRange : Nat → Nat → Nat → Nat → List Nat
  | 0, _, _, _ => []
  | n + 1, i, e, m => if i = e then [] else i :: idxRange n ((i + 1) % m) e m
/-- Every posted descriptor of a draining receive bobbin returns with `DRAINED` (R214). -/
def drainRx (s : State) (b : Nat) : State :=
  let B := bobn s b
  if B.st ≠ .draining ∨ B.kind ≠ .receive ∨ s.rx.writes.any (fun w => w.bobbin == b) then s
  else
    let l := idxRange (bsize B) B.next B.hostIdx (2 * bsize B)
    let s := setBob s b { B with next := B.hostIdx }
    let s := l.foldl (fun s i => complete (cntBank s b 6 1)
      { src := some b, index := i, count := 1, bytes := recordOf kDRAINED.toNat (qualCode (nowQ s)) 1 0 0 0 0 0 b 0 1 0 (nowT64 s) 0 0 }) s
    drainCheck s b
/-- Frame `w` finds no buffer for the rest of its octets (R212, R213). -/
def exhaust (s : State) (w : RxWrite) : State × RxWrite :=
  if w.rest.isEmpty then (s, w)
  else if (bobn s w.bobbin).cstate = .free then (raise (cntBank s w.bobbin 3 1) (bobGroup w.bobbin) 3, { w with rest := [], code := kRX_OUT_OF_BUFFERS })
  else (raise (cntBank s w.bobbin 4 1) (bobGroup w.bobbin) 4, { w with rest := [], code := kRX_STARVED })
/-- Deliveries into bobbin `b` that still need a buffer get none: another frame comes, or the bobbin drains. -/
def shutWrites (s : State) (b : Nat) : State :=
  (s.rx.writes.filter (fun w => w.bobbin == b && !w.rest.isEmpty)).foldl (fun s w =>
    let (s, v) := exhaust s w
    { s with rx := { s.rx with writes := s.rx.writes.map (fun u => if u.id = w.id then v else u) } }) s
/-- A bobbin enters DRAINING (R214, R268). -/
def startDrain (s : State) (b : Nat) : State :=
  let B := bobn s b
  if B.kind = .receive then drainRx (xoffBob (shutWrites (setBob s b { B with st := .draining }) b) b) b
  else
    let l := idxRange (bsize B) B.next B.hostIdx (2 * bsize B)
    let s := setBob s b { B with st := .draining, next := B.hostIdx }
    let fs := s.tx.frames.filter (fun f => f.bobbin == b && waiting f && (f.origin == .uncontracted || f.origin == .demoted))
    let s := fs.foldl (fun s f => endUnsent (cntBank s b 6 1) f kDRAINED) s
    let s := l.foldl (fun s i => drainEntry s b i) s
    let s := setBob s b { bobn s b with pushed := [] }
    drainCheck s b
def useBobbinDrain (_ : Cmd) : List (Nat × Nat × Nat) := [(8, 0, 1)]
def bodyBobbinDrain (j : JEntry) (s : State) : StepRes :=
  let c := j.cmd
  let b := objNum c
  let B := bobn s b
  if j.stage = 1 then stop (if B.st = .stale then sBUSY else sDONE) s
  else guarded [(B.kind == .completion, sBAD_OPERAND), (B.st != .opened, sBUSY)] s
    (let s := startDrain s b
     if fbit c 8 0 then stop sDEFERRED s
     else if (bobn s b).st ≠ .draining then stop sDONE s
     else .wait s (.bobbinDrained b) 1 0 [])
def execBobbinDrain (c : Cmd) (s : State) : Host.Outcome State Fault Refusal := instr 0x23 useBobbinDrain bodyBobbinDrain c s

/-! ### `BOBBIN.BIND` -/
def useBobbinBind (c : Cmd) : List (Nat × Nat × Nat) :=
  if objKind c = 0x10 then [(8, 0, 32), (12, 0, 32), (16, 0, 16), (18, 0, 16), (20, 0, 6)]
  else if objKind c = 0 then [(8, 0, 6), (16, 0, 64), (24, 0, 64)]
  else if c.sub = 0 then [(8, 0, 16)] else if c.sub = 2 then [(8, 0, 16)] else []
/-- Sub-id 0: the skein of a transmit bobbin (R219). -/
def bindSkein (s : State) (b k : Nat) : StepRes :=
  let B := bobn s b
  let K := skein s k
  let I := (contr s B.contract).img
  guarded [(B.st != .opened, sBUSY), (B.kind != .transmit, sBAD_OPERAND), (decide (4096 ≤ k) || !K.valid, sNO_OBJECT),
    (B.cstate == .bound && (K.port != I.port || K.cls != I.cls), sBAD_OPERAND), (bocc B != 0 || bobInFlight s b, sBUSY)] s
    (stop sDONE (setBob s b { B with skein := k }))
/-- Sub-id 2: a contract (R225). -/
def bindContract (s : State) (b n : Nat) : StepRes :=
  let B := bobn s b
  let C := contr s n
  let K := skein s B.skein
  guarded [(B.st == .stale, sBUSY), (C.st != .admitted, sNO_OBJECT), (C.bobbin.isSome, sBAD_OPERAND), (B.cstate == .bound, sBUSY),
    (B.kind != (if C.img.rx then .receive else .transmit), sBAD_OPERAND),
    (!C.img.rx && (K.port != C.img.port || K.cls != C.img.cls || !K.valid), sBAD_OPERAND),
    (C.img.rx && decide (bsize B < rxReserve C.img), sBAD_OPERAND), (bocc B != 0 || bobInFlight s b, sBUSY)] s
    (let s := setCt s n { C with bobbin := some b, tok := C.img.burst * 8000, last := s.tm.count }
     stop sDONE (setBob s b { B with cstate := .bound, contract := n }))
/-- Sub-id 3: clear CSTATE 2 (R309). -/
def clearWithdrawn (s : State) (b : Nat) : StepRes :=
  let B := bobn s b
  guarded [(B.st == .stale, sBUSY), (B.cstate == .free, sDONE_NOTE), (B.cstate == .bound || (contr s B.contract).st != .free, sBUSY)] s
    (stop sDONE (setBob s b { B with cstate := .free, contract := 0 }))
/-- A data window (R189). -/
def setWindow (s : State) (w base size : Nat) : StepRes :=
  let new : Window := { base := base, size := size }
  guarded [(base % 4096 != 0 || size % 4096 != 0 || decide (2 ^ 56 < base + size), sBAD_OPERAND),
    (window s w != new && bobsAny s (fun _ B => B.window == w), sBUSY)] s
    (stop sDONE { s with bob := { s.bob with window := tset {} s.bob.window w new } })
/-- The grant of a Tenant ring (R286). -/
def setGrant (s : State) (r : Nat) (g : Grant) : StepRes :=
  guarded [((ring s r).priv != 2, sBAD_OPERAND), (decide (262144 < g.firstBob + g.bobs) || decide (4096 < g.firstSkein + g.skeins), sBAD_OPERAND)] s
    (stop sDONE (setRing s r { ring s r with grant := g }))
def bodyBobbinBind (j : JEntry) (s : State) : StepRes :=
  let c := j.cmd
  let n := objNum c
  if objKind c = 0x10 then setGrant s n { firstBob := fld c 8 0 32, bobs := fld c 12 0 32, firstSkein := fld c 16 0 16, skeins := fld c 18 0 16, window := fld c 20 0 6 }
  else if objKind c = 0 then setWindow s (fld c 8 0 6) (fld c 16 0 64) (fld c 24 0 64)
  else if c.sub = 0 then bindSkein s n (fld c 8 0 16)
  else if c.sub = 2 then bindContract s n (fld c 8 0 16)
  else clearWithdrawn s n
/-- The object and sub-id of a row that names them; the first row takes the opcode's every form (log 7). -/
def asObj (c : Cmd) (kind num sub : Nat) : Cmd := { c with obj := BitVec.ofNat 24 (kind * 2 ^ 18 + num), sub := BitVec.ofNat 8 sub }
def execBobbinBindSkein (c : Cmd) (s : State) : Host.Outcome State Fault Refusal := instr 0x22 useBobbinBind bodyBobbinBind c s
def execBobbinBindContract (c : Cmd) (s : State) : Host.Outcome State Fault Refusal := instr 0x22 useBobbinBind bodyBobbinBind { c with sub := 2 } s
def execBobbinClearWithdrawn (c : Cmd) (s : State) : Host.Outcome State Fault Refusal := instr 0x22 useBobbinBind bodyBobbinBind { c with sub := 3 } s
def execDataWindowDefine (c : Cmd) (s : State) : Host.Outcome State Fault Refusal := instr 0x22 useBobbinBind bodyBobbinBind (asObj c 0 0 1) s
def execTenantGrant (c : Cmd) (s : State) : Host.Outcome State Fault Refusal := instr 0x22 useBobbinBind bodyBobbinBind (asObj c 0x10 (objNum c) 0) s

/-! ### `SKEIN.SET` (R7, R218, R268, R311, R485) -/
def useSkeinSet (_ : Cmd) : List (Nat × Nat × Nat) := [(8, 0, 2), (9, 0, 8), (10, 0, 8), (12, 0, 16)]
def boundTo (s : State) (k : Nat) (q : Bobbin → Bool) : Bool := bobsAny s (fun _ B => B.kind == .transmit && B.skein == k && q B)
def bodySkeinSet (j : JEntry) (s : State) : StepRes :=
  let c := j.cmd
  let k := objNum c
  let K := skein s k
  let valid := fbit c 8 0
  let en := fbit c 8 1
  let p := fld c 9 0 8
  let cls := fld c 10 0 8
  guarded [(inStarter s && valid && decide (8 ≤ cls) && decide (cls < 16), sBUSY), (valid && (decide (32 ≤ p) || (pdef s p).isNone), sNO_OBJECT), (valid && (decide (16 ≤ cls) || decide (fld c 12 0 16 < 64)), sBAD_OPERAND),
    (valid && K.valid && (K.port != p || K.cls != cls) && boundTo s k (fun _ => true), sBUSY),
    (K.valid && K.enable && !(valid && en) && boundTo s k (fun B => B.cstate != .free), sBUSY),
    (!valid && (boundTo s k (fun _ => true) || s.ct.tab.any (fun e => e.2.st != .free && e.2.img.demoteEn && e.2.img.demoteSkein == k)), sBUSY)] s
    (stop sDONE (if valid then
        setSkein s k (if K.valid && K.port == p && K.cls == cls then { K with quantum := fld c 12 0 16, enable := en }
          else { valid := true, port := p, cls := cls, quantum := fld c 12 0 16, enable := en })
      else setSkein s k {}))
def execSkeinSet (c : Cmd) (s : State) : Host.Outcome State Fault Refusal := instr 0x24 useSkeinSet bodySkeinSet c s

/-! ### `SPREAD.SET` (R153, R312) -/
def useSpreadSet (c : Cmd) : List (Nat × Nat × Nat) :=
  if c.sub = 0 then [(8, 0, 16), (10, 0, 16)] else [(8, 0, 64), (16, 0, 8), (18, 0, 16), (20, 0, 32)]
def spreadGroup (s : State) (g : Nat) : SpreadGroup := tget {} s.spr.group g
def spreadWrite (s : State) (at_ : Nat) (l : List Nat) : State :=
  { s with spr := { s.spr with entry := (l.foldl (fun (a : Tbl (BitVec 32) × Nat) v => (tset 0 a.1 a.2 (BitVec.ofNat 32 v), a.2 + 1)) (s.spr.entry, at_)).1 } }
def words32 (o : Octets) (n : Nat) : List Nat := (List.range n).map (fun i => ofLe (part o (4 * i) 4))
def bodySpreadSet (j : JEntry) (s : State) : StepRes :=
  let c := j.cmd
  let g := objNum c
  if c.sub = 0 then
    let base := fld c 8 0 16
    let size := fld c 10 0 16
    guarded [(decide (4096 < size) || decide (65536 < base + size), sBAD_OPERAND)] s
      (stop sDONE { s with spr := { s.spr with group := tset {} s.spr.group g (if size = 0 then {} else { base := base, size := size }) } })
  else
    let G := spreadGroup s g
    let at_ := fld c 18 0 16
    let cnt := fld c 20 0 32
    let done := j.progress.toNat
    let go := fun (o : Octets) =>
      let n := min 512 (cnt - done)
      let s := spreadWrite s (G.base + at_ + done) ((words32 o cnt).drop done |>.take n)
      if done + n = cnt then stop sDONE s else .wait s .ready 1 (BitVec.ofNat 64 (done + n)) (packed o)
    let first := withRead j (4 * cnt) 2 s (fun r => match r with
      | none => stop sBAD_OPERAND s
      | some o => if (words32 o cnt).any (fun v => bits v 18 13 != 0) then stop sBAD_OPERAND s else go o)
    if j.stage = 1 then go (unpacked j.scratch)
    else if j.stage = 2 then first
    else guarded [(G.size == 0, sNO_OBJECT), (cnt == 0 || decide (G.size < at_ + cnt), sBAD_OPERAND),
        (!bufOk s c (fld c 8 0 64) (fld c 16 0 8) (4 * cnt), sBAD_OPERAND)] s first
def execSpreadGroupSet (c : Cmd) (s : State) : Host.Outcome State Fault Refusal := instr 0x25 useSpreadSet bodySpreadSet c s
def execSpreadEntriesWrite (c : Cmd) (s : State) : Host.Outcome State Fault Refusal := instr 0x25 useSpreadSet bodySpreadSet { c with sub := 1 } s

/-! ### Doorbell and push -/
/-- The index window answers (R377, R461). -/
def idxOpen (s : State) (b : Nat) : Bool := portOpen s && isOn s (dBC (b / 32768)) && isOn s dHD && s.pw.indexOpen
/-- The check of R192 for bobbin `B`. -/
def idxOk (B : Bobbin) (v : Nat) : Bool :=
  if B.kind = .completion then consOk v B.blockIdx B.hostIdx (bsize B) else prodOk v B.hostIdx B.blockIdx (bsize B)
/-- Buffers posted for a receive bobbin may end what holds a class back (R45). -/
def posted (s : State) (b : Nat) : State := if (bobn s b).kind = .receive then xoffBob s b else s
/-- `HOST_IDX_WRITE`: a write of `IDX_ENTRY` (R192, R194). -/
def hostIdxWrite (b : Nat) (v : BitVec 64) (strobe : BitVec 8) (s : State) : State :=
  if !idxOpen s b then setReg s .absent []
  else
    let B := bobn s b
    let s := setReg s .served []
    let w := v.toNat % 2 ^ 17
    if strobe ≠ 0xFF ∨ B.st ≠ .opened ∨ w = B.hostIdx then s
    else if idxOk B w then posted (examinePushed B.pushed.length b (setBob s b { B with hostIdx := w })) b
    else raise (cntBank s b 0 1) (bobGroup b) 0
def execHostIdxWrite (b : Nat) (v : BitVec 64) (strobe : BitVec 8) (s : State) : Host.Outcome State Fault Refusal := event (hostIdxWrite b v strobe s)
/-- The push is one that R209 accepts: a single burst of 128 bytes for an OPEN transmit bobbin. -/
def pushOk (B : Bobbin) (o : Octets) (burst : Bool) : Bool :=
  let pi := bits (ofLe (part o 0 4)) 0 17
  let cnt := oct o 4
  burst && o.length == 128 && B.st == .opened && B.kind == .transmit && bits (ofLe (part o 0 4)) 17 15 == 0 &&
  (part o 5 27).all (· == 0) && decide (1 ≤ cnt) && decide (cnt ≤ 3) && decide (pi < 2 * bsize B) &&
  (pi + 2 * bsize B - cnt) % (2 * bsize B) == B.hostIdx && prodOk pi B.hostIdx B.blockIdx (bsize B)
/-- `PUSH` (R208 to R211, R461). A push to a DRAINING or STALE bobbin is ignored (R214, R217). -/
def push (b : Nat) (o : Octets) (burst : Bool) (s : State) : State :=
  if !idxOpen s b then setReg s .absent []
  else
    let B := bobn s b
    let s := setReg s .served []
    if B.st = .draining ∨ B.st = .stale then s
    else if pushOk B o burst then
      let pi := bits (ofLe (part o 0 4)) 0 17
      let put := (List.range (oct o 4)).foldl (fun t i => tset [] t ((B.hostIdx + i) % (2 * bsize B)) (part o (32 + 32 * i) 32)) B.pushed
      examinePushed put.length b (setBob s b { B with hostIdx := pi, pushed := put })
    else raise (cntBank (crumb s b 3) b 1 1) (bobGroup b) 1
def execPush (b : Nat) (o : Octets) (burst : Bool) (s : State) : Host.Outcome State Fault Refusal := event (push b o burst s)

end Sys2Proof.Machine
end

