-- ==== Sys2Proof/Machine/Admission.lean ====
section
/-! DEFINITION. The admission test (R239 to R246, R506) and what its instructions return (R293, R294). -/
namespace Sys2Proof.Machine

/-- Line latency: transmit and receive (R27). -/
def lineNs (m : LaneMode) (f : Fec) : Nat × Nat :=
  match m, f with
  | .l224, _ => (130, 320)
  | .l112, _ => (150, 300)
  | .l56, _ => (180, 300)
  | .l25, .none => (110, 90)
  | .l25, .clause74 => (200, 300)
  | .l25, _ => (210, 310)
  | .l10, .none => (220, 150)
  | .l10, _ => (420, 320)
/-- Where a test failed: REASON, the contract named, FAIL_T. -/
structure Refusal_ where
  reason : Nat
  ct : Option Nat := none
  t : Nat := 0
  /-- the least margin up to the failure -/
  m : Nat := 2 ^ 32 - 1
deriving DecidableEq, Repr
abbrev Verdict := Except Refusal_ Nat
/-- Contracts counted (R224) with the values in force for tests (R248), the candidate's in place of its own. -/
def counted (s : State) (cand : Option (Nat × CtImage)) : List (Nat × CtImage) :=
  let l := (s.ct.tab.filter (fun e => e.2.st != .free)).map (fun e => (e.1, e.2.trans.getD e.2.img))
  match cand with
  | some (n, i) => tput n i (tdel n l)
  | none => l
/-- The block part (R242): d_fab. -/
def fabPart (rate : Nat) (l : List (Nat × CtImage)) : Verdict :=
  if l.isEmpty then .ok 0
  else if rate = 0 ∨ rate < l.foldl (fun a e => a + e.2.rate) 0 then .error { reason := 1 }
  else .ok (ceilDiv (l.foldl (fun a e => a + e.2.burst) 0 * 8000) rate)
/-- Terms of port `p` (R239): rate, line latencies, lnp, wake term. -/
def wakeTerm (S : PortSet) : Nat := if S.line.lpiEn then 5000 else if S.shed.mode ≠ 0 then 8000 else 0
def lnp (S : PortSet) : Nat := if S.line.preempt = .off then S.line.m + 20 else 143
def lineOf (s : State) (p : Nat) : Nat × Nat := match pdef s p with | some d => if d.plied then (150, 340) else lineNs d.mode d.fec | none => (0, 0)
def insertD (x : Nat × Nat × CtImage) : List (Nat × Nat × CtImage) → List (Nat × Nat × CtImage)
  | [] => [x]
  | y :: t => if x.1 < y.1 ∨ (x.1 = y.1 ∧ x.2.1 < y.2.1) then x :: y :: t else y :: insertD x t
/-- The demand test at each deadline (R243). -/
def demandLoop (c k tBlock : Nat) (all : List (Nat × Nat × CtImage)) : List (Nat × Nat × CtImage) → Nat → Verdict
  | [], m => .ok m
  | (t, n, _) :: rest, m =>
    let dem := all.foldl (fun a e => if e.1 ≤ t then a + e.2.2.burst * 8000 + e.2.2.rate * (t - e.1) else a) 0
    let sup : Int := (c : Int) * ((t * k : Nat) - (65536 * tBlock : Nat) : Int)
    if sup < (dem * 65536 : Nat) then .error { reason := 4, ct := some n, t := t, m := m }
    else demandLoop c k tBlock all rest (min m ((sup - (dem * 65536 : Nat)) / ((c * k : Nat) : Int)).toNat)
/-- Part of R243 for port `p`. -/
def txPart (s : State) (dFab p : Nat) (l : List (Nat × CtImage)) (m : Nat) : Verdict :=
  let S := pset s p
  let c := curRate s p
  let pbd := if S.line.fc = .none then 0 else S.line.pbDepth
  let pbf := if S.line.fc = .none then 0 else S.line.pbFill
  if l.isEmpty then .ok m
  else if 64192 < pbf then .error { reason := 2, m := m }
  else
    let k := 65536 - pbf - 1344
    let lx := max (lnp S) 84
    let lx := if S.line.xo then max lx (S.line.m + 20) else lx
    let lx := l.foldl (fun a e => max a (e.2.maxFrame + 20)) lx
    let tBlock := ceilDiv ((lx + 84) * 8000) c + pbd * 8 + wakeTerm S
    let f := 250 + dFab + 40 + 8 + (lineOf s p).1
    if c * k < l.foldl (fun a e => a + e.2.rate) 0 * 65536 then .error { reason := 2, m := m }
    else match l.find? (fun e => decide (bound8 e.2 ≤ f)) with
      | some e => .error { reason := 3, ct := some e.1, m := m }
      | none =>
        let ds := l.foldl (fun a e => insertD (bound8 e.2 - f, e.1, e.2) a) []
        demandLoop c k tBlock ds ds m
/-- Receive part (R244) over `l` in number order. -/
def rxPart (s : State) (dFab : Nat) (all : List (Nat × CtImage)) : List (Nat × CtImage) → Nat → Verdict
  | [], m => .ok m
  | (n, i) :: t, m =>
    let c := curRate s i.port
    let need := ceilDiv (i.maxFrame * 8000) c + (lineOf s i.port).2 + 280 + dFab
    if c < (all.filter (fun e => e.2.port == i.port)).foldl (fun a e => a + e.2.rate) 0 then .error { reason := 2, ct := some n, m := m }
    else if bound8 i < need then .error { reason := 3, ct := some n, m := m }
    else rxPart s dFab all t (min m (bound8 i - need))
/-- Cells of slice `k` that admission may count (R245, R389). -/
def sliceCells (s : State) (k : Nat) : Nat := (if isFailed s (dPS (2 * k)) then 0 else 24576) + (if isFailed s (dPS (2 * k + 1)) then 0 else 24576)
/-- Limits of R245 in the order of R506. -/
def limitPart (s : State) (cand : Option Nat) (l : List (Nat × CtImage)) (m : Nat) : Verdict :=
  if (List.range 4).any (fun k => decide (sliceCells s k < (l.filter (fun e => !e.2.rx && sliceOf e.2.port == k)).foldl (fun a e => a + psCells e.2) 0)) then
    .error { reason := 5, ct := cand, m := m }
  else if l.any (fun e => e.2.rx && decide (32768 < rxReserve e.2)) then .error { reason := 6, ct := cand, m := m }
  else .ok m
/-- Every part in order (R246). -/
def admVerdict (s : State) (cand : Option (Nat × CtImage)) (dFab : Nat) : Verdict :=
  let l := counted s cand
  let tx := l.filter (fun e => !e.2.rx)
  let rx := l.filter (fun e => e.2.rx)
  let r : Verdict := (List.range 32).foldl (fun (v : Verdict) p => match v with
    | .ok m => txPart s dFab p (tx.filter (fun e => e.2.port == p)) m
    | .error e => .error e) (.ok (2 ^ 32 - 1))
  let r : Verdict := match r with | .ok m => rxPart s dFab rx rx m | .error e => .error e
  match r with | .ok m => limitPart s (cand.map Prod.fst) l m | .error e => .error e
def sat32 (n : Nat) : Nat := min n (2 ^ 32 - 1)
/-- The test on state `s`, which has the change in place, for the candidate. STATUS is filled in by the instruction. -/
def admTest (s : State) (cand : Option (Nat × CtImage)) : AdmResult :=
  let base : AdmResult := match cand with
    | some (n, i) => { candValid := true, candidate := n, psCells := if i.rx then 0 else sat32 (psCells i), rxReserve := if i.rx then sat32 (rxReserve i) else 0 }
    | none => {}
  let fail := fun (x : Refusal_) (d : Nat) => { base with reason := x.reason, failValid := x.ct.isSome, failContract := x.ct.getD 0, failT := sat32 x.t, margin := sat32 x.m, dFab := sat32 d }
  match fabPart s.ct.fabRate (counted s cand) with
  | .error x => fail x 0
  | .ok d => match admVerdict s cand d with
    | .error x => fail x d
    | .ok m => { base with margin := sat32 m, dFab := sat32 d }
/-- RESULT of R293. -/
def admResult (r : AdmResult) : BitVec 64 :=
  BitVec.ofNat 64 (r.reason + b2n r.failValid * 2 ^ 8 + r.failContract * 2 ^ 16 +
    (if r.reason = 0 then r.margin else if r.reason = 4 then r.failT else 0) * 2 ^ 32)
def keepAdm (s : State) (r : AdmResult) (st : BitVec 8) : State := { s with sq := { s.sq with adm := { r with status := st } } }
/-- Steps of a test, of at most 256 units each: the contracts summed (R242), the (i, j) terms of each port's demand loop (R243), the receive
contracts (R244) and the contracts of the limits (R245, R345). -/
def testSteps (s : State) (cand : Option (Nat × CtImage)) : Nat :=
  let l := counted s cand
  let n := fun (q : CtImage → Bool) => (l.filter (fun e => q e.2)).length
  max 1 (ceilDiv (2 * l.length + n (·.rx) + ((List.range 32).map (fun p => n (fun i => !i.rx && i.port == p) ^ 2)).sum) 256)
/-- Run the test on `t`, the state with the change in place: the contracts and terms count as they stand at its first step. `k` acts on its
verdict in its last step; between its steps the entry stands at stage 8 and nothing is changed (R345). One test runs at a time (R293). -/
def tested (j : JEntry) (s t : State) (cand : Option (Nat × CtImage)) (k : AdmResult → State → StepRes) : StepRes :=
  match (if j.stage = 8 then s.sq.admRun else none) with
  | some x =>
    if x.left ≤ 1 then k x.result { s with sq := { s.sq with admRun := none } }
    else .wait { s with sq := { s.sq with admRun := some { x with left := x.left - 1 } } } .ready 8 0 []
  | none =>
    if admBusy s then .wait s .admFree 0 0 []
    else
      let r := admTest t cand
      if testSteps t cand = 1 then k r s
      else .wait { s with sq := { s.sq with admRun := some { ring := j.ring, result := r, left := testSteps t cand - 1 } } } .ready 8 0 []
/-- On a pass the instruction answers DONE and has its effect, else it is refused (R293). -/
def verdict (ok : State → State) (r : AdmResult) (s : State) : StepRes :=
  if r.reason = 0 then .done sDONE (admResult r) (keepAdm (ok s) r sDONE)
  else .done sREFUSED_ADMISSION (admResult r) (keepAdm s r sREFUSED_ADMISSION)
/-- Draw cells for contract `n` under image `i` (R506): from what others leave of PS(2k), the rest from PS(2k+1). -/
def drawCells (s : State) (n : Nat) (i : CtImage) : Nat × Nat :=
  if i.rx then (0, 0)
  else
    let k := sliceOf i.port
    let C := contr s n
    let mine := if C.st ≠ .free ∧ sliceOf C.img.port = k then C.draw0 else 0
    let free0 := (if isFailed s (dPS (2 * k)) then 0 else 24576) - ((drawn s k).1 - mine)
    (min (psCells i) free0, psCells i - free0)
/-- FAB_RATE on the block object (R238, R240, R314). -/
def bodyFabRate (j : JEntry) (s : State) : StepRes :=
  let v := fld j.cmd 8 0 22
  let set := fun (s : State) => { s with ct := { s.ct with fabRate := v } }
  let go := tested j s (set s) none (verdict set)
  if j.stage = 8 then go
  else guarded [(decide (3200000 < v), sBAD_OPERAND)] s (if v = s.ct.fabRate then stop sDONE s else go)

end Sys2Proof.Machine
end

