-- ==== Sys2Proof/Machine/PortOps.lean ====
section
/-! DEFINITION. `PORT.*` but `PORT.PLY`, `LANE.MARGIN` (R299 to R304, R306), and the settings they write. -/
namespace Sys2Proof.Machine

/-! ### `PORT.DEFINE` (R8 to R10, R24, R299, R485) -/
def modeOf (n : Nat) : Option LaneMode := if n = 0 then some .l224 else if n = 1 then some .l112 else if n = 2 then some .l56 else if n = 3 then some .l25 else if n = 4 then some .l10 else none
def fecOf (n : Nat) : Option Fec := if n = 0 then some .none else if n = 1 then some .rs544 else if n = 2 then some .rs528 else if n = 3 then some .clause74 else none
def fecNum : Fec → Nat
  | .none => 0 | .rs544 => 1 | .rs528 => 2 | .clause74 => 3
/-- The combinations of R24. -/
def comboOk (m : LaneMode) (w : Nat) (f : Fec) : Bool :=
  match m with
  | .l224 | .l112 | .l56 => (w == 1 || w == 2 || w == 4 || w == 8) && f == .rs544
  | .l25 => (w == 1 && (f == .none || f == .clause74 || f == .rs528)) || (w == 4 && (f == .none || f == .rs528))
  | .l10 => (w == 1 || w == 4) && (f == .none || f == .clause74)
def lanesMeet (p w q v : Nat) : Bool := decide (p < q + v) && decide (q < p + w)
/-- The definition breaks R8, R9, R10, R24 or a tally's ceiling (R417). -/
def defineBad (s : State) (p : Nat) (d : PortDef) : Bool :=
  let others := (definedPorts s).filter (· != p)
  !comboOk d.mode d.width d.fec || p % d.width != 0 || decide (32 < p + d.width) ||
  others.any (fun q => match pdef s q with | some e => lanesMeet p d.width q e.width || (e.mode != d.mode && (lgOf q e.width).any (fun g => (lgOf p d.width).contains g)) | none => false) ||
  (lgOf p d.width).any (fun g => tally s g == 5 || decide (modeNum d.mode < tally s g)) ||
  decide ((if tally s 8 = 0 then 32 else tally s 8) < others.length + 1)
/-- Ports of `PORT.PLY`: those its partner reserved on the odd instance, and P24 while it is plied, or joined, on the even (R445). -/
def plyHolds (s : State) (p : Nat) : Bool :=
  decide (24 ≤ p) && (s.stk.reserved || s.sq.journal.any (fun e => e.opcode == 0x16) || (p == 24 && (match pdef s p with | some d => d.plied | none => false)))
/-- Port `p` is a stack port of a stack the instance is in (R424). -/
def isStackPort (s : State) (p : Nat) : Bool := s.stk.st != .none && s.stk.portMask.toNat.testBit p
def starterDefineBad (p : Nat) (d : PortDef) : Bool := p % 8 != 0 || d.width != 1 || d.mode != .l25 || d.fec != .none
def portNamed (s : State) (p : Nat) : Bool :=
  isEnabled s p || s.ct.tab.any (fun e => e.2.st != .free && e.2.img.port == p) || s.skn.tab.any (fun e => e.2.valid && e.2.port == p)
/-- The settings of R299. -/
def definedSet : PortSet := { rx := { custom := 0x9100 } }
/-- The port's settings, line, queue and redundancy counters as `PORT.DEFINE` leaves them (R92, R125, R299). The latch of
TSQ_POP_HI keeps what the last read of the queue returned (R87). -/
def freshPort (s : State) (p : Nat) (d : Option PortDef) : State :=
  let s := setLine (setPset (setPdef s p d) p (if d.isSome then definedSet else {})) p { tsqHi := (line s p).tsqHi }
  { s with ctr := { s.ctr with red := tclear (5 * p) 5 s.ctr.red } }
def usePortDefine (c : Cmd) : List (Nat × Nat × Nat) := if c.sub = 0 then [(8, 0, 8), (9, 0, 8), (10, 0, 8), (16, 0, 48)] else []
def bodyPortDefine (j : JEntry) (s : State) : StepRes :=
  let c := j.cmd
  let p := objNum c
  if c.sub = 1 then guarded [((pdef s p).isNone, sDONE_NOTE), (portNamed s p || plyHolds s p, sBUSY)] s (stop sDONE (freshPort s p none))
  else match modeOf (fld c 8 0 8), fecOf (fld c 10 0 8) with
    | some m, some f =>
      let d : PortDef := { mode := m, width := fld c 9 0 8, fec := f, mac := fmac c 16 }
      guarded [(defineBad s p d || (inStarter s && starterDefineBad p d), sBAD_OPERAND), (((pdef s p).isSome && portNamed s p) || plyHolds s p, sBUSY)] s
        (stop sDONE (freshPort s p (some d)))
    | _, _ => stop sBAD_OPERAND s
def execPortDefine (c : Cmd) (s : State) : Host.Outcome State Fault Refusal := instr 0x10 usePortDefine bodyPortDefine c s
def execPortUndefine (c : Cmd) (s : State) : Host.Outcome State Fault Refusal := instr 0x10 usePortDefine bodyPortDefine { c with sub := 1 } s

/-! ### `PORT.UP`, `PORT.DOWN` (R300, R487) -/
def setEnabled (s : State) (p : Nat) (b : Bool) : State := { s with port := { s.port with enabled := setBitAt s.port.enabled p b } }
def disablePort (s : State) (p : Nat) : State :=
  let s := setEnabled s p false
  let s := { s with port := { s.port with downing := setBitAt s.port.downing p false, starterPort := setBitAt s.port.starterPort p false } }
  setLine s p { line s p with training := .idle, laneDone := [] }
def startTraining (s : State) (p : Nat) : State := setLine s p { line s p with training := .running, laneDone := [] }
def bodyPortUp (j : JEntry) (s : State) : StepRes :=
  let p := objNum j.cmd
  if j.stage = 1 then
    if (portVoteSet s p).any (isFailed s) then stop sPOWER_FAILED (disablePort s p)
    else stop sDONE (if isEnabled s p then startTraining s p else s)
  else guarded [((pdef s p).isNone, sNO_OBJECT), (isEnabled s p, sDONE_NOTE)] s
    (let s := setEnabled s p true
     let s := if inStarter s then { s with port := { s.port with starterPort := setBitAt s.port.starterPort p true } } else s
     let s := setLine s p { line s p with bucket := (pset s p).line.pbDepth, bucketFrac := 0, bucketAt := s.tm.now, holdX := 0 }
     let ds := portVoteSet s p
     if ds.all (isOn s) then stop sDONE (startTraining s p)
     else if ds.any (isFailed s) then stop sPOWER_FAILED (disablePort s p)
     else .wait s (.domains ds) 1 0 [])
def execPortUp (c : Cmd) (s : State) : Host.Outcome State Fault Refusal := instr 0x11 useNone bodyPortUp c s
def bodyPortDown (j : JEntry) (s : State) : StepRes :=
  let p := objNum j.cmd
  if j.stage = 1 then stop sDONE (disablePort s p)
  else guarded [((pdef s p).isNone, sNO_OBJECT), (!isEnabled s p, sDONE_NOTE)] s
    (let s := { s with port := { s.port with downing := setBitAt s.port.downing p true } }
     let s := portGoesDown s p kLATE_LINK_DOWN
     if portDrained s p then stop sDONE (disablePort s p) else .wait s (.portDrained p) 1 0 [])
def execPortDown (c : Cmd) (s : State) : Host.Outcome State Fault Refusal := instr 0x12 useNone bodyPortDown c s

/-! ### `PORT.SET` (R301, R302, R485) -/
def fcOf (n : Nat) : FcMode := if n = 1 then .pause else if n = 2 then .pfc else .none
def preOf (n : Nat) : Preempt := if n = 1 then .verify else if n = 2 then .noVerify else .off
def lineSetOf (c : Cmd) : LineSet :=
  { m := fld c 8 0 16, linkHold := fld c 10 0 16, fcsPass := fbit c 12 0, fcsKeep := fbit c 12 1, fc := fcOf (fld c 12 2 2), preempt := preOf (fld c 12 4 2)
    lpiEn := fbit c 12 6, xo := fbit c 12 7, verifyMs := fld c 13 0 8, lpiIdle := fld c 14 0 16, pbDepth := fld c 16 0 24, pbFill := fld c 20 0 16
    histRx := fbit c 22 0, fecDegraded := fld c 24 0 32 }
def lpiLegal (s : State) (p : Nat) : Bool :=
  match pdef s p with | some d => (d.mode == .l10 || d.mode == .l25) && (d.width == 1 || d.width == 4) | none => false
def lineBad (s : State) (p : Nat) (c : Cmd) (N : LineSet) : Bool :=
  decide (N.m < 64) || decide (16383 < N.m) || decide (1000 < N.linkHold) || fld c 12 2 2 == 3 || fld c 12 4 2 == 3 ||
  N.verifyMs == 0 || decide (128 < N.verifyMs) || N.lpiIdle == 0 || decide (1000 < N.lpiIdle) ||
  s.ct.tab.any (fun e => e.2.st != .free && e.2.img.port == p && decide (N.m < e.2.img.maxFrame)) || (N.lpiEn && !lpiLegal s p)
/-- The terms of R239 that the line group holds. -/
def lineTerms (L : LineSet) : Nat × Nat × Nat × Bool × Bool × Bool :=
  (L.m, if L.fc = .none then 0 else L.pbDepth, if L.fc = .none then 0 else L.pbFill, L.preempt == .off, L.lpiEn, L.xo)
/-- Preemption begins on a port that is up (R37, R302). -/
def beginVerify (s : State) (p : Nat) : State :=
  let L := line s p
  match (pset s p).line.preempt with
  | .off => s
  | .verify => setLine s p { L with verify := .waiting 1, verifyAt := s.tm.now, verifyDue := true }
  | .noVerify => raise (setLine s p { L with verify := .active }) p 3
/-- Level of the budget's bucket at real time `now` (R43): in 8 ns units, and the fraction of a unit in 2^-16 ns. -/
def budgetAt (L : Line) (S : LineSet) (now : Nat) : Nat × Nat :=
  let c := L.bucketFrac + (now - L.bucketAt) * S.pbFill
  let level := L.bucket + c / 524288
  if S.pbDepth ≤ level then (S.pbDepth, 0) else (level, c % 524288)
/-- The line group takes effect: the bucket is filled up to now at the old rate and held to the new depth (R43, R302). -/
def applyLine (s : State) (p : Nat) (N : LineSet) : State :=
  let O := (pset s p).line
  let s := setPset s p { pset s p with line := N }
  let s := if O.histRx = N.histRx then s else { s with ctr := { s.ctr with hist := tclear (32 * p) 32 s.ctr.hist } }
  let (level, frac) := budgetAt (line s p) O s.tm.now
  let s := setLine s p { line s p with bucket := min level N.pbDepth, bucketFrac := frac, bucketAt := s.tm.now }
  if O.preempt = .off ∧ N.preempt ≠ .off ∧ (line s p).up then beginVerify s p
  else setLine s p (preemptEnd s p (line s p))
def usePortSet (c : Cmd) : List (Nat × Nat × Nat) :=
  if c.sub = 0 then [(8, 0, 16), (10, 0, 16), (12, 0, 8), (13, 0, 8), (14, 0, 16), (16, 0, 24), (20, 0, 16), (22, 0, 1), (24, 0, 32)]
  else if c.sub = 1 then [(8, 0, 48), (14, 0, 16), (16, 0, 32)]
  else if c.sub = 2 then [(8, 0, 3), (9, 0, 4), (10, 0, 32)]
  else [(8, 0, 2), (9, 0, 8), (10, 0, 16), (12, 0, 8), (13, 0, 8), (14, 0, 16)]
def bodyPortSet (j : JEntry) (s : State) : StepRes :=
  let c := j.cmd
  let p := objNum c
  let S := pset s p
  if (pdef s p).isNone then stop sNO_OBJECT s
  else if c.sub = 0 then
    let N := lineSetOf c
    let go := tested j s (setPset s p { S with line := N }) none (verdict (applyLine · p N))
    if j.stage = 8 then go
    else guarded [(lineBad s p c N || (N.lpiEn && isStackPort s p) || (inStarter s && (N.preempt != .off || N.lpiEn || N.xo)), sBAD_OPERAND)] s
      (if lineTerms N = lineTerms S.line then stop sDONE (applyLine s p N) else go)
  else if c.sub = 1 then
    guarded [(decide (1000000 < fld c 16 0 32), sBAD_OPERAND)] s
      (stop sDONE (setPset s p { S with pfcMap := BitVec.ofNat 48 (fld c 8 0 48), genMask := BitVec.ofNat 16 (fld c 14 0 16), xoffDelay := fld c 16 0 32 }))
  else if c.sub = 2 then
    stop sDONE (setPset s p { S with parse := fld c 8 0 3, defClass := fld c 9 0 4, pcpMap := BitVec.ofNat 32 (fld c 10 0 32) })
  else
    let T : OneStep := { enable := fbit c 8 0, residence := fbit c 8 1, matchOffset := fld c 9 0 8, matchValue := BitVec.ofNat 16 (fld c 10 0 16)
                         ptpOffset := fld c 12 0 8, udpCsum := fld c 13 0 8, typeMask := BitVec.ofNat 16 (fld c 14 0 16) }
    guarded [(decide (212 < T.ptpOffset) || decide (254 < T.matchOffset) || decide (254 < T.udpCsum), sBAD_OPERAND)] s
      (stop sDONE (setPset s p { S with oneStep := tset {} S.oneStep (c.sub.toNat - 4) T }))
def execPortSet (c : Cmd) (s : State) : Host.Outcome State Fault Refusal := instr 0x13 usePortSet bodyPortSet c s

/-! ### Shedding messages (R54) -/
/-- The width a port runs at. -/
def widthNow (s : State) (p : Nat) : Nat := match pdef s p with | some d => curWidth s p d | none => 0
/-- The frame of R54. -/
def shedFrame (s : State) (p type prop reason : Nat) (txn : BitVec 16) : Octets :=
  let o := be 6 0x0180C200000E ++ be 6 (macOf s p).toNat ++ be 2 0x88B5 ++ be 2 0x5357 ++ be 1 1 ++ be 1 1 ++ be 1 type ++ be 1 (line s p).shed.seq.toNat ++
    be 1 (widthNow s p) ++ be 1 prop ++ be 1 0x0E ++ be 1 reason ++ be 2 txn.toNat ++ be 4 8000 ++ List.replicate 30 0
  o ++ fcsOf o
/-- Send a shedding message; `prop` 0 means the current width. -/
def shedSend (s : State) (p type prop reason : Nat) (txn : BitVec 16) : State :=
  let s := sendOwn s p (.shed (shedFrame s p type (if prop = 0 then widthNow s p else prop) reason txn))
  setLine s p { line s p with shed := { (line s p).shed with seq := (line s p).shed.seq + 1 } }
def shedAble (s : State) (p : Nat) : Bool :=
  match pdef s p with | some d => d.width == 8 && !d.plied && (d.mode == .l224 || d.mode == .l112 || d.mode == .l56) | none => false
/-- The admitted contracts pass at width `w` with TS (R57). -/
def shedFits (s : State) (p w : Nat) : Bool :=
  let t := setPset (setLine s p { line s p with width := w }) p { pset s p with shed := { (pset s p).shed with mode := max 1 (pset s p).shed.mode } }
  (admTest t none).reason == 0
/-- The port's own decision to change to width `w` (R57, R59). -/
def shedPropose (s : State) (p w : Nat) : State :=
  let L := line s p
  let H := L.shed
  if L.up && shedAble s p && H.peerOffered && (H.st == .full || H.st == .shed) && decide (H.notBefore ≤ s.tm.now) && w != widthNow s p &&
      (decide (widthNow s p < w) || shedFits s p w) then
    let s := setLine s p { L with shed := { H with st := .proposed, prev := H.st, txn := H.txn + 1, target := w, initiator := true
                                                   readySent := false, readyGot := false, readyDue := false, since := s.tm.now } }
    shedSend s p 2 w 0 (H.txn + 1)
  else s
def usePortShed (_ : Cmd) : List (Nat × Nat × Nat) := [(8, 0, 8), (9, 0, 8), (10, 0, 16), (12, 0, 8), (13, 0, 8)]
/-- The policy that `PORT.SHED` stores (R303): the fields of its MODE, the others as they were. -/
def shedPolicyOf (P : ShedPolicy) (c : Cmd) : ShedPolicy :=
  if fld c 8 0 8 = 1 then { P with mode := 1, hold := fld c 10 0 16, low := fld c 12 0 8, grow := fld c 13 0 8 }
  else if fld c 8 0 8 = 2 then { P with mode := 2, width := fld c 9 0 8 }
  else { P with mode := 0 }
def bodyPortShed (j : JEntry) (s : State) : StepRes :=
  let c := j.cmd
  let p := objNum c
  let S := pset s p
  let mode := fld c 8 0 8
  let w := fld c 9 0 8
  let N := shedPolicyOf S.shed c
  let t := setPset s p { S with shed := N }
  let after := fun (s : State) =>
    let s := setPset s p { pset s p with shed := N }
    let s := setLine s p { line s p with shed := { (line s p).shed with growOff := mode == 0 && decide (widthNow s p < 8) } }
    if mode = 2 then shedPropose s p w else if mode = 0 then shedPropose s p 8 else s
  let go := tested j s t none (verdict after)
  if j.stage = 8 then go
  else guarded [(inStarter s && mode != 0, sBUSY),
    (decide (2 < mode) || !shedAble s p || (mode != 0 && isStackPort s p) || (mode == 2 && !(w == 2 || w == 4 || w == 8)) ||
      (mode == 1 && (fld c 10 0 16 == 0 || fld c 12 0 8 == 0 || fld c 13 0 8 == 0)), sBAD_OPERAND)] s
    (if (S.shed.mode = 0) = (mode = 0) then stop sDONE (after s) else go)
def execPortShed (c : Cmd) (s : State) : Host.Outcome State Fault Refusal := instr 0x14 usePortShed bodyPortShed c s

/-! ### `LANE.MARGIN` (R304) -/
def useLaneMargin (_ : Cmd) : List (Nat × Nat × Nat) := [(8, 0, 16)]
/-- The port whose lanes hold `l`. -/
def portOfLane (s : State) (l : Nat) : Option Nat := (definedPorts s).find? (fun p => match pdef s p with | some d => decide (p ≤ l) && decide (l < p + d.width) | none => false)
def marginBusy (s : State) (l : Nat) : Bool :=
  (match portOfLane s l with | some p => isEnabled s p && !(line s p).up | none => false) ||
  s.tst.margin.any (fun e => decide (e.1 / 4 = l / 4) && e.2.isSome)
/-- A step for each millisecond of margining (R295); the report is that of the PMA, four u16 values (R464). -/
def bodyLaneMargin (report : Octets) (j : JEntry) (s : State) : StepRes :=
  let c := j.cmd
  let l := objNum c
  let ms := fld c 8 0 16
  let ended := match tget none s.tst.margin l with | some (t, n) => decide (t + n ≤ s.tm.now) | none => true
  if j.stage = 1 ∧ ended = true then .done sDONE (BitVec.ofNat 64 (ofLe (report.take 8))) { s with tst := { s.tst with margin := tset none s.tst.margin l none } }
  else if j.stage = 1 then .wait s (.margin l s.tm.now) 1 0 []
  else guarded [(ms == 0 || decide (1000 < ms), sBAD_OPERAND), (marginBusy s l, sBUSY)] s
    (.wait { s with tst := { s.tst with margin := tset none s.tst.margin l (some (s.tm.now, ms * 1000000)) } } (.margin l s.tm.now) 1 0 [])
def execLaneMargin (c : Cmd) (s : State) : Host.Outcome State Fault Refusal := instr 0x15 useLaneMargin (bodyLaneMargin []) c s

/-! ### `PORT.TAG` (R48, R49, R111, R306) -/
def usePortTag (c : Cmd) : List (Nat × Nat × Nat) :=
  if c.sub.toNat < 16 then [(8, 0, 96), (20, 0, 5), (22, 0, 14)]
  else if c.sub = 16 then [(8, 0, 3), (9, 0, 2)] else if c.sub = 17 then [(8, 0, 4), (9, 0, 8)] else [(8, 0, 16)]
def tpidOf (custom v : Nat) : Tpid := if v ≠ 0x8100 ∧ v ≠ 0x88A8 ∧ v = custom then .custom else .value (BitVec.ofNat 16 v)
def bodyPortTag (j : JEntry) (s : State) : StepRes :=
  let c := j.cmd
  let p := objNum c
  let S := pset s p
  let custom := S.rx.custom.toNat
  if c.sub.toNat < 16 then
    let n := fld c 20 0 2
    let red := fld c 20 3 2
    let st := fld c 22 0 14
    let bad := (List.range 3).any (fun i => decide (i < n) && !([0x8100, 0x88A8, custom].contains (fld c (8 + 4 * i) 0 16)))
    let T : TagProfile := { tpid0 := tpidOf custom (fld c 8 0 16), tci0 := BitVec.ofNat 16 (fld c 10 0 16), tpid1 := tpidOf custom (fld c 12 0 16), tci1 := BitVec.ofNat 16 (fld c 14 0 16)
                            tpid2 := tpidOf custom (fld c 16 0 16), tci2 := BitVec.ofNat 16 (fld c 18 0 16), count := n, pcpFromClass := fbit c 20 2, redKind := red, stream := st }
    guarded [(bad || (red != 0 && !(strm s st).genEn), sBAD_OPERAND)] s (stop sDONE (setPset s p { S with tag := tset {} S.tag c.sub.toNat T }))
  else if c.sub = 16 then
    stop sDONE (setPset s p { S with rx := { S.rx with rm8100 := fbit c 8 0, rm88a8 := fbit c 8 1, rmCustom := fbit c 8 2, count := fld c 9 0 2 } })
  else if c.sub = 17 then
    let lan := fld c 9 0 4
    guarded [(fld c 8 0 2 == 3 && lan != 0xA && lan != 0xB, sBAD_OPERAND)] s
      (stop sDONE (setPset s p { S with rx := { S.rx with rxKind := fld c 8 0 2, dupMark := fbit c 8 2, remove := fbit c 8 3, lan := lan, path := fld c 9 4 4 } }))
  else stop sDONE (setPset s p { S with rx := { S.rx with custom := BitVec.ofNat 16 (fld c 8 0 16) } })
def execPortTag (c : Cmd) (s : State) : Host.Outcome State Fault Refusal := instr 0x17 usePortTag bodyPortTag c s

end Sys2Proof.Machine
end

