-- ==== Sys2Proof/Machine/LineOps.lean ====
section
/-! DEFINITION. A port's line: alignment, link-up and link-down (R28, R29), lane training (R464), verification of preemption
(R37), pause and PFC received (R39 to R44), FEC seconds (R65), low-power idle (R52) and lane shedding (R54 to R61). -/
namespace Sys2Proof.Machine

/-! ### Received control frames -/
/-- The counts of a received frame of `n` octets with a correct FCS (R62). -/
def countRx (s : State) (p n kind : Nat) : State :=
  cntPort (cntPort (cntPort (cntPort (cntPort s p 19 n) p 0 n) p 1 1) p (2 + kind) 1) p (12 + sizeBin n) 1
/-- The MAC of port `p` receives frames. -/
def rxOn (s : State) (p : Nat) : Bool := (pdef s p).isSome && (line s p).up && isOn s (dMS (sliceOf p))
/-- What the link partner sends reaches the port. -/
def wireOn (s : State) (p : Nat) : Bool := rxOn s p && !looped s p
/-- What the port receives next, in loopback: the oldest of what it has sent (R332). -/
def echoRx (s : State) (p : Nat) (e : Echoed) : Bool := !looped s p || (line s p).echo.head? == some e
/-- It has come back. -/
def echoTaken (s : State) (p : Nat) : State := if looped s p then setLine s p { line s p with echo := (line s p).echo.tail } else s

/-- Charge a pause of `q` quanta (R43). -/
def chargePause (s : State) (p q : Nat) : State :=
  let L := line s p
  let (level, frac) := budgetAt L (pset s p).line s.tm.now
  let t := s.tm.count / 8
  let x := t + ceilDiv (q * 64000) (curRate s p)
  let start := max L.holdX t
  let charge := x - start
  let L := { L with bucketAt := s.tm.now, holdX := max L.holdX x }
  let s := cntPort s p cPAUSE_CHARGED charge
  if charge ≤ level then setLine s p { L with bucket := level - charge, bucketFrac := frac }
  else raise (cntPort (setLine s p { L with bucket := 0, bucketFrac := frac, breaches := L.breaches ++ [(start + level, x)] }) p cPAUSE_BREACHES 1) p 6
/-- The classes of `L` that are express and held. -/
def expressHeld (held : BitVec 16) : Bool := held.toNat / 256 != 0
/-- Make class `cl` held or not; the time that any express class was held is counted (R62). -/
def setHeld (s : State) (p cl : Nat) (b : Bool) : State :=
  let L := line s p
  let held := setBitAt L.held cl b
  if expressHeld held then setLine s p { L with held := held, heldSince := some (L.heldSince.getD s.tm.now) }
  else
    let s := setLine s p { L with held := held, heldSince := none }
    match L.heldSince with | some t => cntTime s p cPAUSE_HOLD_TIME (s.tm.now - t) | none => s
/-- Load class `cl`'s hold timer with `q` quanta, in bit times at the port's current rate (R40 to R42). -/
def loadHold (s : State) (p cl q : Nat) : State :=
  let L := line s p
  let L := { L with armed := L.armed.filter (fun e => e.1 != cl) }
  if q = 0 then
    setHeld (setLine s p { L with holdEnd := tset 0 L.holdEnd cl 0, holdFrom := tset 0 L.holdFrom cl 0, holdBits := tset (0, 0) L.holdBits cl (0, 0) }) p cl false
  else
    setLine s p { L with holdEnd := tset 0 L.holdEnd cl (s.tm.now + ceilDiv (q * 512000) (curRate s p)), holdFrom := tset 0 L.holdFrom cl (s.tm.now + 2)
                         holdBits := tset (0, 0) L.holdBits cl (q * 512000, s.tm.now) }
/-- Where the frame in transmission is of a class whose timer runs, the holds that this reception gives wait for its end (R41). -/
def armHolds (s : State) (p : Nat) (cls : List Nat) : State :=
  let L := line s p
  match L.tx with
  | .frame fid =>
    match txFrame s fid with
    | some f => if s.tm.now < tget 0 L.holdEnd f.cls then setLine s p { L with armed := cls.map (fun cl => (cl, fid)) ++ L.armed } else s
    | none => s
  | _ => s
/-- Classes with the times a control frame gives them, applied and charged. -/
def applyPause (s : State) (p : Nat) (l : List (Nat × Nat)) : State :=
  let q := (l.filter (fun e => decide (8 ≤ e.1))).foldl (fun a e => max a e.2) 0
  let s := if q = 0 then s else chargePause s p q
  armHolds (l.foldl (fun s e => loadHold s p e.1 e.2) s) p ((l.filter (fun e => e.2 != 0)).map Prod.fst)
/-- What a pause frame does once counted (R39). -/
def pauseCore (s : State) (p q : Nat) : State :=
  if (pset s p).line.fc = .pause then applyPause (cntPort s p 5 1) p ((List.range 16).map (fun c => (c, q))) else cntPort s p 7 1
/-- What a PFC frame does: quanta of priority i at bits [16i+15:16i]. -/
def pfcCore (s : State) (p : Nat) (enable : BitVec 8) (quanta : BitVec 128) : State :=
  let S := pset s p
  if S.line.fc = .pfc then
    let s := (List.range 8).foldl (fun s i => if enable.toNat.testBit i && bits quanta.toNat (16 * i) 16 != 0 then cntPort s p (77 + i) 1 else s) (cntPort s p 6 1)
    applyPause s p (((List.range 16).filter (fun c => enable.toNat.testBit (bits S.pfcMap.toNat (3 * c) 3))).map
      (fun c => (c, bits quanta.toNat (16 * bits S.pfcMap.toNat (3 * c) 3) 16)))
  else cntPort s p 7 1
/-- `PAUSE_FRAME_RECEIVED`: a frame of 64 octets to 01-80-C2-00-00-01. -/
def pauseFrameReceived (p : Nat) (q : BitVec 16) (s : State) : State := if wireOn s p then pauseCore (countRx s p 64 1) p q.toNat else s
def execPauseFrameReceived (p : Nat) (q : BitVec 16) (s : State) : Host.Outcome State Fault Refusal := event (pauseFrameReceived p q s)
def pfcFrameReceived (p : Nat) (en : BitVec 8) (q : BitVec 128) (s : State) : State := if wireOn s p then pfcCore (countRx s p 64 1) p en q else s
def execPfcFrameReceived (p : Nat) (en : BitVec 8) (q : BitVec 128) (s : State) : Host.Outcome State Fault Refusal := event (pfcFrameReceived p en q s)
/-- `CLASS_HOLD_START` (R41). -/
def classHoldStart (p cl : Nat) (s : State) : State :=
  let L := line s p
  if isOn s (dMS (sliceOf p)) ∧ s.tm.now < tget 0 L.holdEnd cl ∧ tget 0 L.holdFrom cl ≤ s.tm.now ∧ L.armed.any (fun e => e.1 == cl) = false ∧ L.held.toNat.testBit cl = false then
    setHeld s p cl true
  else s
def execClassHoldStart (p cl : Nat) (s : State) : Host.Outcome State Fault Refusal := event (classHoldStart p cl s)
/-- `HOLD_TIMER_EXPIRY` (R41). -/
def holdTimerExpiry (p cl : Nat) (s : State) : State :=
  let L := line s p
  if tget 0 L.holdEnd cl ≠ 0 ∧ tget 0 L.holdEnd cl ≤ s.tm.now then
    setHeld (setLine s p { L with holdEnd := tset 0 L.holdEnd cl 0, holdFrom := tset 0 L.holdFrom cl 0, armed := L.armed.filter (fun e => e.1 != cl) }) p cl false
  else s
def execHoldTimerExpiry (p cl : Nat) (s : State) : Host.Outcome State Fault Refusal := event (holdTimerExpiry p cl s)

/-! ### Shedding: the exchange (R59) -/
/-- Width of the larger side of a change that is agreed. -/
def growing (s : State) (p : Nat) : Bool := (line s p).shed.st == .agreed && decide (widthNow s p < (line s p).shed.target)
def lanesNeeded (s : State) (p : Nat) : Nat := if growing s p then (line s p).shed.target else widthNow s p
/-- Every lane the port needs has reported done. -/
def lanesDone (s : State) (p : Nat) : Bool := (List.range (lanesNeeded s p)).all (fun i => tget false (line s p).laneDone (p + i))
/-- Lanes to add are waked and trained (R58): training starts once their domain is ON. -/
def growTrain (s : State) (p : Nat) : State :=
  let L := line s p
  if growing s p && L.training != .running && !lanesDone s p && (lgOf p L.shed.target).all (isOn s) then setLine s p { L with training := .running } else s
/-- The lanes above the present width are no longer trained. -/
def growStart (s : State) (p : Nat) : State :=
  let L := line s p
  let w := widthNow s p
  growTrain (setLine s p { L with laneDone := (List.range (L.shed.target - w)).foldl (fun t i => tset false t (p + w + i) false) L.laneDone }) p
/-- Send READY; once it has left, the last frame at the old width, frames stop and the port switches (R55, R59, `txIdle`). -/
def goSwitch (s : State) (p : Nat) : State :=
  let s := shedSend s p 5 (line s p).shed.target 0 (line s p).shed.txn
  setLine s p { line s p with shed := { (line s p).shed with st := .agreed, readyDue := true } }
/-- A growth whose lanes are ready goes on: the initiator at once, the responder once READY has come. -/
def growHook (s : State) (p : Nat) : State :=
  let H := (line s p).shed
  if growing s p && !H.readyDue && lanesDone s p && (H.initiator || H.readyGot) then goSwitch s p else s
/-- Back to the state before the exchange; a REQUEST waits 100 ms where `wait` says so. -/
def shedBack (s : State) (p : Nat) (wait : Bool) : State :=
  let L := line s p
  let H := L.shed
  setLine s p { L with training := if L.up then .done else L.training
                       shed := { H with st := H.prev, initiator := false, readySent := false, readyGot := false, readyDue := false, doneDue := false, since := s.tm.now, notBefore := if wait then s.tm.now + 100000000 else H.notBefore } }
/-- Reception of a shedding message: 64 octets to 01-80-C2-00-00-0E, consumed and counted (R56). -/
def shedRx (s : State) (p : Nat) : State := cntPort (countRx s p 64 1) p 24 1
def shedRow (p : Nat) (s : State) (k : State → State) : State := if wireOn s p then k (shedRx s p) else s
/-- `OFFER`. -/
def offerCore (p : Nat) (_ : ShedMsg) (s : State) : State := setLine s p { line s p with shed := { (line s p).shed with peerOffered := true } }
def offer (p : Nat) (m : ShedMsg) (s : State) : State := shedRow p s (offerCore p m)
def execOffer (p : Nat) (m : ShedMsg) (s : State) : Host.Outcome State Fault Refusal := event (offer p m s)
/-- A REQUEST is declined: the state is the one before any REQUEST of the port's own, which is dropped (R59). -/
def declineRequest (s : State) (p reason : Nat) (m : ShedMsg) (prev : ShedState) : State :=
  let s := shedSend s p 4 0 reason m.txn
  setLine s p { line s p with shed := { (line s p).shed with st := prev, initiator := false } }
/-- A REQUEST in FULL or SHED: ACCEPT, or DECLINE with its reason (R57, R58). A port that cannot shed declines with reason 1 (log 81). -/
def answerRequest (s : State) (p : Nat) (m : ShedMsg) (prev : ShedState) : State :=
  let L := line s p
  let w := m.proposed
  let grow := decide (widthNow s p < w)
  if !(shedAble s p && (w == 2 || w == 4 || w == 8)) then declineRequest s p 1 m prev
  else if !grow && (pset s p).shed.mode == 0 then declineRequest s p 3 m prev
  else if !grow && !shedFits s p w then declineRequest s p 1 m prev
  else
    let s := shedSend s p 3 w 0 m.txn
    let s := setLine s p { line s p with shed := { L.shed with seq := (line s p).shed.seq, st := .agreed, prev := prev, txn := m.txn, target := w, initiator := false
                                                               readySent := false, readyGot := false, readyDue := false, since := s.tm.now } }
    if grow then growStart s p else s
/-- `REQUEST` (R59, R60). -/
def requestCore (p : Nat) (m : ShedMsg) (s : State) : State :=
  let H := (line s p).shed
  match H.st with
  | .full | .shed => answerRequest s p m H.st
  | .proposed => if (macOf s p).toNat < m.src.toNat then s else answerRequest s p m H.prev
  | _ => s
def request (p : Nat) (m : ShedMsg) (s : State) : State := shedRow p s (requestCore p m)
def execRequest (p : Nat) (m : ShedMsg) (s : State) : Host.Outcome State Fault Refusal := event (request p m s)
/-- `ACCEPT`. -/
def acceptCore (p : Nat) (m : ShedMsg) (s : State) : State :=
  let L := line s p
  if L.shed.st = .proposed ∧ m.txn = L.shed.txn then
    if widthNow s p < L.shed.target then growStart (setLine s p { L with shed := { L.shed with st := .agreed } }) p else goSwitch s p
  else s
def accept (p : Nat) (m : ShedMsg) (s : State) : State := shedRow p s (acceptCore p m)
def execAccept (p : Nat) (m : ShedMsg) (s : State) : Host.Outcome State Fault Refusal := event (accept p m s)
/-- `DECLINE`. -/
def declineCore (p : Nat) (_ : ShedMsg) (s : State) : State :=
  if (line s p).shed.st = .proposed then shedBack s p true else s
def decline (p : Nat) (m : ShedMsg) (s : State) : State := shedRow p s (declineCore p m)
def execDecline (p : Nat) (m : ShedMsg) (s : State) : Host.Outcome State Fault Refusal := event (decline p m s)
/-- `READY`. -/
def readyCore (p : Nat) (m : ShedMsg) (s : State) : State :=
  let L := line s p
  if m.txn ≠ L.shed.txn then s
  else if L.shed.st = .agreed ∧ L.shed.initiator = false ∧ L.shed.readyDue = false then
    let s := setLine s p { L with shed := { L.shed with readyGot := true } }
    if growing s p && !lanesDone s p then s else goSwitch s p
  else if (L.shed.st = .switching ∨ L.shed.readyDue) ∧ L.shed.initiator then setLine s p { L with shed := { L.shed with readyGot := true } }
  else s
def readyRow (p : Nat) (m : ShedMsg) (s : State) : State := shedRow p s (readyCore p m)
def execReady (p : Nat) (m : ShedMsg) (s : State) : Host.Outcome State Fault Refusal := event (readyRow p m s)
/-- `DONE`: the peer's first frame at the new width. -/
def doneRow (p : Nat) (_ : ShedMsg) (s : State) : State := shedRow p s (fun s => s)
def execDone (p : Nat) (m : ShedMsg) (s : State) : Host.Outcome State Fault Refusal := event (doneRow p m s)
/-- `ABORT`. -/
def abortCore (p : Nat) (_ : ShedMsg) (s : State) : State :=
  if (line s p).shed.st = .agreed ∧ (line s p).shed.initiator = false ∧ (line s p).shed.readyDue = false then shedBack s p false else s
def abortRow (p : Nat) (m : ShedMsg) (s : State) : State := shedRow p s (abortCore p m)
def execAbort (p : Nat) (m : ShedMsg) (s : State) : Host.Outcome State Fault Refusal := event (abortRow p m s)
/-- `SHED_PROPOSE_TIMEOUT`: 1 ms without an end of PROPOSED (an accepted growth whose lanes are not ready included). -/
def shedProposeTimeout (p : Nat) (s : State) : State :=
  let H := (line s p).shed
  if (H.st = .proposed ∨ (H.st = .agreed ∧ H.initiator ∧ H.readyDue = false)) ∧ H.since + 1000000 ≤ s.tm.now then shedBack (shedSend s p 7 0 5 H.txn) p true else s
def execShedProposeTimeout (p : Nat) (s : State) : Host.Outcome State Fault Refusal := event (shedProposeTimeout p s)
/-- `SHED_AGREE_TIMEOUT`. -/
def shedAgreeTimeout (p : Nat) (s : State) : State :=
  let H := (line s p).shed
  if H.st = .agreed ∧ H.initiator = false ∧ H.readyGot = false ∧ H.readyDue = false ∧ H.since + 1000000 ≤ s.tm.now then shedBack s p false else s
def execShedAgreeTimeout (p : Nat) (s : State) : Host.Outcome State Fault Refusal := event (shedAgreeTimeout p s)
/-- `SHED_ALIGNED`: both directions aligned at the new width; DONE is the first frame there, and frames resume (R55, R59, R61). -/
def shedAligned (p : Nat) (s : State) : State :=
  let L := line s p
  let H := L.shed
  if H.st = .switching ∧ H.readyGot then
    let full := match pdef s p with | some d => d.width == H.target | none => true
    let rate := match pdef s p with | some d => rateOf d H.target | none => 1
    let L := rescaleHolds s p rate L
    let s := setLine s p { L with own := [], width := if full then 0 else H.target, locked := true, lockAt := s.tm.now
                                  shed := { H with st := if full then .full else .shed, initiator := false, doneDue := true, since := s.tm.now, lowWindows := 0, octets := 0, windowAt := s.tm.now } }
    let s := shedSend s p 6 0 0 H.txn
    let s := setLine s p { line s p with own := (line s p).own ++ L.own }
    raise (cntPort s p cSHED_CHANGES 1) p 7
  else s
def execShedAligned (p : Nat) (s : State) : Host.Outcome State Fault Refusal := event (shedAligned p s)
/-- `SHED_SWITCH_TIMEOUT`: not aligned within TS. The port reverts, and is down unless it aligns within 1 ms. -/
def shedSwitchTimeout (p : Nat) (s : State) : State :=
  let L := line s p
  if L.shed.st = .switching ∧ L.shed.since + 8000 ≤ s.tm.now then
    let s := setLine s p { L with locked := false, lockAt := s.tm.now + 999000 }
    raise (cntPort (shedBack s p false) p cSHED_ABORTS 1) p 8
  else s
def execShedSwitchTimeout (p : Nat) (s : State) : Host.Outcome State Fault Refusal := event (shedSwitchTimeout p s)
/-- `OFFER_TIMER`: 1 s since the last OFFER, while the policy lets the port shed (R55). -/
def offerTimer (p : Nat) (s : State) : State :=
  let L := line s p
  if L.up ∧ shedAble s p ∧ (pset s p).shed.mode ≠ 0 ∧ L.shed.lastOffer + 1000000000 ≤ s.tm.now then
    shedSend (setLine s p { L with shed := { L.shed with lastOffer := s.tm.now } }) p 1 0 0 0
  else s
def execOfferTimer (p : Nat) (s : State) : Host.Outcome State Fault Refusal := event (offerTimer p s)
/-- `SHED_WINDOW_END`: 64 µs of transmitted octets measured (R56's policy). A fixed width, and the growth to eight lanes of MODE OFF, is proposed
again until it is reached (R303). -/
def shedWindowEnd (p : Nat) (s : State) : State :=
  let L := line s p
  let H := L.shed
  let P := (pset s p).shed
  if L.up ∧ shedAble s p ∧ (P.mode ≠ 0 ∨ H.growOff) ∧ H.windowAt + 64000 ≤ s.tm.now then
    let w := widthNow s p
    let r := curRate s p
    let low := H.octets * 32 < P.low * (r / 2)
    let n := if low ∧ 2 < w then H.lowWindows + 1 else 0
    let s := setLine s p { L with shed := { H with lowWindows := n, octets := 0, windowAt := s.tm.now, growOff := H.growOff && decide (w < 8) } }
    if P.mode = 0 then shedPropose s p 8
    else if P.mode = 2 then shedPropose s p P.width
    else if w < 8 ∧ P.grow * r < H.octets * 32 then shedPropose s p 8
    else if P.hold ≤ n ∧ 2 < w then shedPropose s p (w / 2)
    else s
  else s
def execShedWindowEnd (p : Nat) (s : State) : Host.Outcome State Fault Refusal := event (shedWindowEnd p s)

/-! ### Alignment, link-up, link-down (R28, R29) -/
/-- The PCS and FEC of every lane of a defined port have power, and its MAC (R12). -/
def pcsOn (s : State) (p : Nat) : Bool :=
  match pdef s p with | some d => (lgOf p d.width).all (isOn s) && isOn s (dMS (sliceOf p)) | none => false
/-- `PCS_ALIGNMENT_LOCK`. -/
def pcsAlignmentLock (p : Nat) (s : State) : State :=
  let L := line s p
  if isEnabled s p ∧ pcsOn s p ∧ L.locked = false then setLine s p { L with locked := true, lockAt := s.tm.now } else s
def execPcsAlignmentLock (p : Nat) (s : State) : Host.Outcome State Fault Refusal := event (pcsAlignmentLock p s)
/-- `PCS_ALIGNMENT_LOSS`; while the port switches its width the loss is part of the change. -/
def pcsAlignmentLoss (p : Nat) (s : State) : State :=
  let L := line s p
  if pcsOn s p ∧ L.locked then
    cntPort (setLine s p { L with locked := false, lockAt := s.tm.now }) p 32 1
  else s
def execPcsAlignmentLoss (p : Nat) (s : State) : Host.Outcome State Fault Refusal := event (pcsAlignmentLoss p s)
/-- Every domain of R13 is ON on its normal clock (R385, R487). -/
def portNormal (s : State) (p : Nat) : Bool :=
  match pdef s p with | some d => (portDomains p d.width (s.port.starterPort.toNat.testBit p)).all (onNormal s) | none => false
/-- `LINK_UP`: the link-up hold has passed without a break. -/
def linkUp (p : Nat) (s : State) : State :=
  let L := line s p
  let S := pset s p
  if isEnabled s p ∧ s.port.downing.toNat.testBit p = false ∧ L.up = false ∧ L.locked ∧ L.training = .done ∧ portNormal s p ∧ L.lockAt + S.line.linkHold * 1000000 ≤ s.tm.now then
    let s := setLine s p { L with up := true, upAt := s.tm.now, idleSince := s.tm.now, shed := { L.shed with lastOffer := s.tm.now, windowAt := s.tm.now, octets := 0 } }
    let s := beginVerify (raise s p 0) p
    if shedAble s p ∧ S.shed.mode ≠ 0 then shedSend s p 1 0 0 0 else s
  else s
def execLinkUp (p : Nat) (s : State) : Host.Outcome State Fault Refusal := event (linkUp p s)
/-- `LINK_DOWN`: a condition of R28 has failed for 1 µs. -/
def linkDown (p : Nat) (s : State) : State :=
  let L := line s p
  if L.up ∧ L.locked = false ∧ L.shed.st ≠ .switching ∧ L.shed.readyDue = false ∧ L.lockAt + 1000 ≤ s.tm.now then portGoesDown s p kLATE_LINK_DOWN else s
def execLinkDown (p : Nat) (s : State) : Host.Outcome State Fault Refusal := event (linkDown p s)

/-! ### Training (R464) -/
def trainingDone (lane : Nat) (s : State) : State :=
  match portOfLane s lane with
  | none => s
  | some p =>
    let L := line s p
    if L.training = .running ∧ isOn s (dLG (lane / 4)) then
      let s := setLine s p { L with laneDone := tset false L.laneDone lane true }
      if lanesDone s p then growHook (setLine s p { line s p with training := .done }) p else s
    else s
def execTrainingDone (lane : Nat) (s : State) : Host.Outcome State Fault Refusal := event (trainingDone lane s)
def trainingFailed (lane : Nat) (s : State) : State :=
  match portOfLane s lane with
  | none => s
  | some p =>
    let L := line s p
    if L.training = .running ∧ isOn s (dLG (lane / 4)) then
      raise (setLine s p { L with training := .failed, trainFailAt := s.tm.now, laneDone := if L.up then L.laneDone else [] }) p 11
    else s
def execTrainingFailed (lane : Nat) (s : State) : Host.Outcome State Fault Refusal := event (trainingFailed lane s)
/-- `TRAINING_RETRY`: 100 ms after a failure, while the port stays enabled. -/
def trainingRetry (p : Nat) (s : State) : State :=
  let L := line s p
  if isEnabled s p ∧ s.port.downing.toNat.testBit p = false ∧ L.training = .failed ∧ L.trainFailAt + 100000000 ≤ s.tm.now ∧ portReady s p then setLine s p { L with training := .running } else s
def execTrainingRetry (p : Nat) (s : State) : Host.Outcome State Fault Refusal := event (trainingRetry p s)

/-! ### Verification (R37) -/
def verifyTimerExpiry (p : Nat) (s : State) : State :=
  let L := line s p
  match L.verify with
  | .waiting n =>
    if L.up ∧ preemptOn s p ∧ L.verifyAt + (pset s p).line.verifyMs * 1000000 ≤ s.tm.now then
      if 3 ≤ n then raise (setLine s p { L with verify := .failed, verifyDue := false }) p 4
      else setLine s p { L with verify := .waiting (n + 1), verifyAt := s.tm.now, verifyDue := true }
    else s
  | _ => s
def execVerifyTimerExpiry (p : Nat) (s : State) : Host.Outcome State Fault Refusal := event (verifyTimerExpiry p s)
def respondMpacketReceived (p : Nat) (s : State) : State :=
  if echoRx s p (.mpacket true) then
    let s := echoTaken s p
    let L := line s p
    match L.verify with
    | .waiting _ => if L.up ∧ preemptOn s p then raise (setLine s p { L with verify := .active, verifyDue := false, beHeldEvt := false }) p 3 else s
    | _ => s
  else s
def execRespondMpacketReceived (p : Nat) (s : State) : Host.Outcome State Fault Refusal := event (respondMpacketReceived p s)
def verifyMpacketReceived (p : Nat) (s : State) : State :=
  if echoRx s p (.mpacket false) then
    let s := echoTaken s p
    if rxOn s p ∧ preemptOn s p then setLine s p { line s p with respondDue := (line s p).respondDue + 1 } else s
  else s
def execVerifyMpacketReceived (p : Nat) (s : State) : Host.Outcome State Fault Refusal := event (verifyMpacketReceived p s)

/-! ### FEC and low-power idle -/
/-- `FEC_SECOND`: what the PCS and the decoders of the port's lanes found in one second (R62, R65). -/
def fecSecond (p cw bad sym blk : Nat) (s : State) : State :=
  match pdef s p with
  | some d =>
    if pcsOn s p then
      let s := cntPort s p 31 blk
      if d.fec ≠ .none then raiseIf (decide ((pset s p).line.fecDegraded < sym)) (cntPort (cntPort (cntPort s p 28 cw) p 29 bad) p 30 sym) p 2 else s
    else s
  | none => s
def execFecSecond (p cw bad sym blk : Nat) (s : State) : Host.Outcome State Fault Refusal := event (fecSecond p cw bad sym blk s)
/-- `LPI_ENTRY` (R52). -/
def lpiEntry (p : Nat) (s : State) : State :=
  let L := line s p
  let S := (pset s p).line
  if L.up ∧ S.lpiEn ∧ L.lpi = false ∧ L.waking = false ∧ L.tx = .idle ∧ L.suspended.isNone ∧ wantsSend s p = false ∧ max L.idleSince L.upAt + S.lpiIdle * 1000 ≤ s.tm.now then
    cntPort (setLine s p { L with lpi := true, lpiAt := s.tm.now }) p 50 1
  else s
def execLpiEntry (p : Nat) (s : State) : Host.Outcome State Fault Refusal := event (lpiEntry p s)
/-- `LPI_WAKE_END`: TW = 5,000 ns have passed. -/
def lpiWakeEnd (p : Nat) (s : State) : State :=
  let L := line s p
  if L.waking ∧ L.lpiAt + 5000 ≤ s.tm.now then setLine s p { L with waking := false, idleSince := s.tm.now } else s
def execLpiWakeEnd (p : Nat) (s : State) : Host.Outcome State Fault Refusal := event (lpiWakeEnd p s)
/-- `PARTNER_LPI_ENTRY` (R62). -/
def partnerLpiEntry (p time8 : Nat) (s : State) : State := if wireOn s p then cntPort (cntPort s p 26 1) p 27 time8 else s
def execPartnerLpiEntry (p time8 : Nat) (s : State) : Host.Outcome State Fault Refusal := event (partnerLpiEntry p time8 s)

end Sys2Proof.Machine
end

