-- ==== Sys2Proof/Machine/StationOps.lean ====
section
/-! DEFINITION. The station table (06): learning, aging, hold-down, learn events, and `TABLE.*` (R320 to R322). -/
namespace Sys2Proof.Machine

/-! ### Learn events (R177, R178) -/
/-- A station event that is raised for the first count since the counters were read (R186). -/
def stnFirst (s : State) (n : Nat) : State := raiseFirst s tgStn n 36 n
def exportBytes (s : State) (kind bank fid mac dest old flags : Nat) : Octets :=
  le 1 kind ++ le 1 bank ++ le 2 fid ++ be 6 mac ++ le 2 dest ++ le 2 old ++ le 1 flags ++ le 1 (instanceId s) ++ le 8 (nowT64 s) ++ le 4 s.stn.seq.toNat ++ le 4 0
/-- Write a learn-event record into the export bobbin, or drop it. -/
def exportRec (s : State) (kind bank fid mac dest old flags : Nat) : State :=
  if !s.stn.exportEn then s
  else
    let b := s.stn.exportBob
    let B := bobn s b
    let bytes := exportBytes s kind bank fid mac dest old flags
    let s := { s with stn := { s.stn with seq := s.stn.seq + 1 } }
    let full := B.st == .opened && decide (bsize B ≤ occOf (nextSlotOf s b) B.hostIdx (bsize B))
    if B.st ≠ .opened ∨ full then
      let s := stnFirst (cntStn s 8 1) 3
      if full then crumb s b 3 else s
    else complete s { src := none, index := 0, count := 0, bytes := bytes }

/-! ### Learning (R166 to R170) -/
/-- n of R170 and its tick in ms. -/
def holdTau (h : Nat) : Nat := ceilDiv h 32
def holdLimit (h : Nat) : Nat := ceilDiv h (holdTau h)
def holdAge (s : State) (e : StnEntry) : Nat := (s.stn.tick + 64 - e.stamp) % 64
def inHold (s : State) (e : StnEntry) : Bool := e.held && decide (holdAge s e ≤ holdLimit s.stn.h)
/-- A flap of a key (R167, R169). -/
def flap (s : State) (fid mac : Nat) (dest old : BitVec 16) : State :=
  exportRec (stnFirst (cntStn s 2 1) 2) 3 0 fid mac dest.toNat old.toNat 0
/-- The source lookup of a learning frame (R167, R168). -/
def learnLookup (s : State) (fid mac : Nat) (dest : BitVec 16) : State :=
  let queue := fun (s : State) => if 4096 ≤ s.stn.fifo.length then stnFirst (cntStn s 4 1) 3
    else { s with stn := { s.stn with fifo := s.stn.fifo ++ [{ fid := fid, mac := mac, dest := dest }] } }
  match stnSeen s fid mac with
  | none => queue s
  | some i =>
    let e := stn s i
    if e.dest = dest then setStn s i { e with touched := true }
    else if e.static then cntStn s 3 1
    else if inHold s e then flap s fid mac dest e.dest
    else queue s
/-- What the learn port does with a request (R169). -/
def learnWrite (s : State) (r : LearnReq) : State :=
  match stnFind s r.fid r.mac with
  | none =>
    match insertKey s r.fid r.mac { touched := true, held := true, stamp := s.stn.tick % 64, age := s.stn.ageInit, dest := r.dest } with
    | (s, some _) => exportRec (stnFirst (cntStn s 0 1) 0) 1 0 r.fid r.mac r.dest.toNat 0 0
    | (s, none) => exportRec (stnFirst (cntStn s 5 1) 4) 5 0 r.fid r.mac r.dest.toNat 0 0
  | some i =>
    let e := stn s i
    if e.dest = r.dest then setStn s i { e with touched := true }
    else if e.static then cntStn s 3 1
    else if inHold s e then flap s r.fid r.mac r.dest e.dest
    else
      let s := setStn s i { e with dest := r.dest, touched := true, age := s.stn.ageInit, held := true, stamp := s.stn.tick % 64 }
      exportRec (stnFirst (cntStn s 1 1) 1) 2 0 r.fid r.mac r.dest.toNat e.dest.toNat 0
/-- The bank that the write at the head of the FIFO needs has power, or never will. -/
def learnReady (s : State) (r : LearnReq) : Bool :=
  match keyBank s r.fid r.mac with | some m => isOn s (dST m) || isFailed s (dST m) | none => true
/-- `LEARN_PORT_WRITE`. -/
def learnPortWrite (s : State) : State :=
  match s.stn.fifo with
  | [] => s
  | r :: t => if isOn s dSL ∧ learnReady s r = true then learnWrite { s with stn := { s.stn with fifo := t } } r else s
def execLearnPortWrite (s : State) : Host.Outcome State Fault Refusal := event (learnPortWrite s)

/-! ### Sweeps (R170, R174) -/
/-- Age one entry in slot `i` of bucket `u`. -/
def ageEntry (s : State) (i : Nat) : State :=
  let e := stn s i
  if e.valid ∧ e.static = false then
    if e.touched then setStn s i { e with age := s.stn.ageInit, touched := false }
    else if 1 < e.age then setStn s i { e with age := e.age - 1 }
    else
      let k := stnKey s (i / 8) e
      exportRec (cntStn (setStn s i {}) 7 1) 4 0 k.1 k.2 e.dest.toNat 0 0
  else s
/-- The bucket's bank is ON: the sweeps skip any other (R371). -/
def bucketOn (s : State) (u : Nat) : Bool := isOn s (dST (bankOf u))
/-- `AGE_SWEEP_VISIT`: the next bucket, while aging is on; 65,536 visits fall due, evenly, in each P. -/
def ageSweepVisit (s : State) : State :=
  if isOn s dSL ∧ s.stn.period ≠ 0 ∧ s.stn.ageDue ≤ s.tm.count * 65536 then
    let u := s.stn.agePos
    let s := if bucketOn s u then (List.range 8).foldl (fun s i => ageEntry s (8 * u + i)) s else s
    let s := { s with stn := { s.stn with agePos := (u + 1) % 65536, ageDue := s.stn.ageDue + s.stn.period * 1000000 } }
    raiseIf (u == 65535) s 37 0
  else s
def execAgeSweepVisit (s : State) : Host.Outcome State Fault Refusal := event (ageSweepVisit s)
/-- `HOLD_TICK`: every τ ms the tick counter advances. -/
def holdTick (s : State) : State :=
  if isOn s dSL ∧ s.stn.tickAt + holdTau s.stn.h * 1000000 ≤ s.tm.count then
    { s with stn := { s.stn with tick := s.stn.tick + 1, tickAt := s.stn.tickAt + holdTau s.stn.h * 1000000 } }
  else s
def execHoldTick (s : State) : Host.Outcome State Fault Refusal := event (holdTick s)
/-- HELD clears where the hold-down is over. -/
def clearHeld (s : State) (i : Nat) : State :=
  let e := stn s i
  if e.held && decide (holdLimit s.stn.h < holdAge s e) then setStn s i { e with held := false } else s
/-- `HOLD_SWEEP_VISIT`: the next bucket, 4,096 to a tick, so that a round takes 16 ticks. -/
def holdSweepVisit (s : State) : State :=
  let u := s.stn.holdPos
  if isOn s dSL ∧ s.stn.holdBase + u / 4096 ≤ s.stn.tick then
    let s := if bucketOn s u then (List.range 8).foldl (fun s i => clearHeld s (8 * u + i)) s else s
    { s with stn := { s.stn with holdPos := (u + 1) % 65536, holdBase := if u = 65535 then s.stn.holdBase + 16 else s.stn.holdBase } }
  else s
def execHoldSweepVisit (s : State) : Host.Outcome State Fault Refusal := event (holdSweepVisit s)

/-! ### `TABLE.*` -/
def keyFid (c : Cmd) : Nat := fld c 8 0 12
def keyMac (c : Cmd) : Nat := (fmac c 10).toNat
def useKey (_ : Cmd) : List (Nat × Nat × Nat) := [(8, 0, 12), (10, 0, 48)]
/-- R160: KIND 3 is reserved, and PORT and SPREAD leave [13:10] zero. -/
def destBad (d : Nat) : Bool := bits d 14 2 == 3 || (bits d 14 2 != 1 && bits d 10 4 != 0)
def placeResult (i moves : Nat) : BitVec 64 := BitVec.ofNat 64 (i / 8 + (i % 8) * 2 ^ 16 + moves * 2 ^ 19)
/-- Indices of every copy of a key. -/
def copies (s : State) (fid mac : Nat) : List Nat :=
  let c := cands s fid mac
  ((if c.1.1 = c.2.1 then [c.1.1] else [c.1.1, c.2.1]).flatMap (fun u => (List.range 8).map (fun i => 8 * u + i))).filter
    (fun i => let e := stn s i; e.valid && bucketOn s (i / 8) && stnKey s (i / 8) e == (fid, mac))
def useTableInsert (_ : Cmd) : List (Nat × Nat × Nat) := [(8, 0, 12), (10, 0, 48), (16, 0, 16), (18, 0, 1)]
def bodyTableInsert (j : JEntry) (s : State) : StepRes :=
  let c := j.cmd
  let dest := BitVec.ofNat 16 (fld c 16 0 16)
  let static := fbit c 18 0
  guarded [(inStarter s && !static, sBUSY), (destBad (fld c 16 0 16), sBAD_OPERAND)] s
    (match stnFind s (keyFid c) (keyMac c) with
     | some i =>
       .done sDONE (placeResult i 0) ((copies s (keyFid c) (keyMac c)).foldl
         (fun s i => setStn s i { stn s i with dest := dest, static := static, touched := true, age := s.stn.ageInit, held := false }) s)
     | none =>
       match insertKey s (keyFid c) (keyMac c) { dest := dest, static := static, touched := true, age := s.stn.ageInit } with
       | (s, some (i, m)) => .done sDONE (placeResult i m) s
       | (s, none) => stop sNO_ROOM s)
def execTableInsert (c : Cmd) (s : State) : Host.Outcome State Fault Refusal := instr 0x50 useTableInsert bodyTableInsert c s
def bodyTableDelete (j : JEntry) (s : State) : StepRes :=
  let l := copies s (keyFid j.cmd) (keyMac j.cmd)
  guarded [(l.isEmpty, sNO_OBJECT)] s (.done sDONE (BitVec.ofNat 64 l.length) (l.foldl (fun s i => setStn s i {}) s))
def execTableDelete (c : Cmd) (s : State) : Host.Outcome State Fault Refusal := instr 0x51 useKey bodyTableDelete c s
def bodyTableLookup (j : JEntry) (s : State) : StepRes :=
  match stnFind s (keyFid j.cmd) (keyMac j.cmd) with
  | none => stop sNO_OBJECT s
  | some i =>
    let e := stn s i
    .done sDONE (BitVec.ofNat 64 (e.dest.toNat + e.age * 2 ^ 16 + b2n e.static * 2 ^ 24 + b2n e.touched * 2 ^ 25 + b2n e.held * 2 ^ 26
      + b2n e.choice * 2 ^ 27 + b2n e.gen * 2 ^ 28 + i / 8 * 2 ^ 32 + i % 8 * 2 ^ 48)) s
def execTableLookup (c : Cmd) (s : State) : Host.Outcome State Fault Refusal := instr 0x52 useKey bodyTableLookup c s

/-- A flush or a rehash has begun and not completed (R322). -/
def tableBusy (s : State) : Bool := s.sq.journal.any (fun e => !e.task && (e.opcode == 0x53 || e.opcode == 0x54) && e.stage == 1)
def useTableFlush (_ : Cmd) : List (Nat × Nat × Nat) := [(8, 0, 12), (10, 0, 16), (12, 0, 3)]
/-- An entry that a flush removes. -/
def flushMatch (c : Cmd) (e : StnEntry) : Bool :=
  e.valid && (fbit c 12 2 || !e.static) && (!fbit c 12 0 || e.q / 2 ^ 32 == fld c 8 0 12) && (!fbit c 12 1 || e.dest.toNat == fld c 10 0 16)
/-- One step of a flush: 16 buckets from the PROGRESS of the entry, which holds the next bucket and the entries removed (R348). -/
def bodyTableFlush (j : JEntry) (s : State) : StepRes :=
  let u := if j.stage = 1 then j.progress.toNat % 65536 else 0
  let n := if j.stage = 1 then j.scratch.headD 0 else 0
  if j.stage = 0 ∧ tableBusy s then stop sBUSY s
  else
    let hit := fun (e : Nat × StnEntry) => decide (8 * u ≤ e.1) && decide (e.1 < 8 * u + 128) && bucketOn s (e.1 / 8) && flushMatch j.cmd e.2
    let gone := (s.stn.entry.filter hit).length
    let s := { s with stn := { s.stn with entry := s.stn.entry.filter (fun e => !hit e) } }
    if u + 16 = 65536 then .done sDONE (BitVec.ofNat 64 (n + gone)) s
    else .wait s .ready 1 (BitVec.ofNat 64 (u + 16 + (n + gone) * 2 ^ 32)) [n + gone]
def execTableFlush (c : Cmd) (s : State) : Host.Outcome State Fault Refusal := instr 0x53 useTableFlush bodyTableFlush c s

/-- The entry is one that the pass moves: of the pass's choice, placed under an old seed (R181). -/
def oldIn (s : State) (e : StnEntry) : Bool := e.valid && e.choice == (s.stn.phase == 1) && e.gen != s.stn.tg
/-- A copy of the key stands at a candidate in a slot other than `i`. -/
def copyElsewhere (s : State) (fid mac i : Nat) : Bool := (copies s fid mac).any (· != i)
/-- Step 1 of R181 for bucket `p`, with `ptr` past it: whether every entry to move has its copy, or there is no room. -/
def rehashCopies (p : Nat) : List Nat → State → State × Bool
  | [], s => (s, true)
  | i :: t, s =>
    let e := stn s (8 * p + i)
    if oldIn s e then
      let k := stnKey s p e
      if copyElsewhere s k.1 k.2 (8 * p + i) then rehashCopies p t s
      else match insertKey s k.1 k.2 e with
        | (s, some _) => rehashCopies p t s
        | (s, none) => (s, false)
    else rehashCopies p t s
def clearOld (p : Nat) (s : State) : State :=
  (List.range 8).foldl (fun s i => if oldIn s (stn s (8 * p + i)) then setStn s (8 * p + i) {} else s) s
/-- One bucket of a pass, and whether there was room; where not, nothing is written but the rotor, which every search advances (R171, R182). -/
def rehashBucket (s : State) : State × Bool :=
  let p := s.stn.ptr
  match rehashCopies p (List.range 8) { s with stn := { s.stn with ptr := p + 1 } } with
  | (t, true) => (clearOld p t, true)
  | (t, false) => ({ s with stn := { s.stn with rotor := t.stn.rotor } }, false)
/-- The end of a pass, at the last bucket. -/
def rehashEnd (s : State) : State :=
  if s.stn.ptr < 65536 then s
  else if s.stn.phase = 1 then raise { s with stn := { s.stn with phase := 2, ptr := 0 } } 37 2
  else raise { s with stn := { s.stn with phase := 0, ptr := 0, s1 := s.stn.s1n, s2 := s.stn.s2n } } 37 2
/-- At most `n` buckets of the present pass; the flag says that one found no room. -/
def rehashRun : Nat → State → State × Bool
  | 0, s => (s, false)
  | n + 1, s =>
    match rehashBucket s with
    | (t, false) => (t, true)
    | (t, true) => if t.stn.ptr = 65536 then (rehashEnd t, false) else rehashRun n t
def useTableRehash (_ : Cmd) : List (Nat × Nat × Nat) := [(8, 0, 28), (12, 0, 28)]
def rehashStep (s : State) : StepRes :=
  match rehashRun 16 s with
  | (s, true) => .done sNO_ROOM (BitVec.ofNat 64 (s.stn.ptr + s.stn.phase * 2 ^ 17)) s
  | (s, false) => if s.stn.phase = 0 then stop sDONE s else .wait s .ready 1 (BitVec.ofNat 64 (s.stn.ptr + s.stn.phase * 2 ^ 17)) []
def bodyTableRehash (j : JEntry) (s : State) : StepRes :=
  let a := fld j.cmd 8 0 28
  let b := fld j.cmd 12 0 28
  if j.stage = 1 then rehashStep s
  else guarded [(a == b, sBAD_OPERAND), (tableBusy s, sBUSY), (s.stn.phase != 0 && (s.stn.s1n != a || s.stn.s2n != b), sBUSY)] s
    (rehashStep (if s.stn.phase = 0 then { s with stn := { s.stn with s1n := a, s2n := b, tg := !s.stn.tg, phase := 1, ptr := 0 } } else s))
def execTableRehash (c : Cmd) (s : State) : Host.Outcome State Fault Refusal := instr 0x54 useTableRehash bodyTableRehash c s

def useTableLearn (c : Cmd) : List (Nat × Nat × Nat) :=
  if objKind c = 1 then [(8, 0, 3), (10, 0, 12), (12, 0, 10)] else [(8, 0, 16), (10, 0, 1), (12, 0, 18)]
def learningAny (s : State) : Bool := s.port.set.any (fun e => e.2.learn.en)
/-- `TABLE.LEARN` of a port and of the table (R157, R170, R177, R321, R485). -/
def bodyTableLearn (j : JEntry) (s : State) : StepRes :=
  let c := j.cmd
  let p := objNum c
  if objKind c = 1 then
    let L : LearnSet := { en := fbit c 8 0, perVlan := fbit c 8 1, flood := fbit c 8 2, fid := fld c 10 0 12, floodGroup := fld c 12 0 10 }
    guarded [(inStarter s && L.en, sBUSY), (L.flood && (tget {} s.spr.group L.floodGroup).size == 0, sNO_OBJECT)] s
      (stop sDONE (setPset s p { pset s p with learn := L }))
  else
    let h := fld c 8 0 16
    let en := fbit c 10 0
    let b := fld c 12 0 18
    let B := bobn s b
    guarded [(h == 0 || decide (1000 < h), sBAD_OPERAND),
      (en && (B.st != .opened || B.kind != .completion || s.bob.tab.any (fun e => e.2.st != .closed && e.2.kind != .completion && e.2.completion == b)), sBAD_OPERAND),
      (h != s.stn.h && learningAny s, sBUSY)] s
      (stop sDONE { s with stn := { s.stn with h := h, exportEn := en, exportBob := if en then b else s.stn.exportBob } })
def execTableLearnPort (c : Cmd) (s : State) : Host.Outcome State Fault Refusal := instr 0x55 useTableLearn bodyTableLearn (if objKind c = 1 then c else asObj c 1 (objNum c) 0) s
def execTableLearnTable (c : Cmd) (s : State) : Host.Outcome State Fault Refusal := instr 0x55 useTableLearn bodyTableLearn (asObj c 0x0A 0 0) s
def useTableAge (_ : Cmd) : List (Nat × Nat × Nat) := [(8, 0, 16), (10, 0, 8)]
def bodyTableAge (j : JEntry) (s : State) : StepRes :=
  let P := fld j.cmd 8 0 16
  guarded [(fld j.cmd 10 0 8 == 0, sBAD_OPERAND)] s
    (stop sDONE { s with stn := { s.stn with period := P, ageInit := fld j.cmd 10 0 8, ageDue := if P = s.stn.period then s.stn.ageDue else s.tm.count * 65536 } })
def execTableAge (c : Cmd) (s : State) : Host.Outcome State Fault Refusal := instr 0x56 useTableAge bodyTableAge c s

end Sys2Proof.Machine
end

