-- ==== Sys2Proof/Machine/RxPath.lean ====
section
/-! DEFINITION. The receive path: the MAC (R31 to R33, R49, R56), recovery (R114 to R122), extraction and classification (R127 to
R150, R157 to R167), delivery (R146, R152, R198, R199, R212, R213, R233, R459) and the core stream interface (R453 to R457). -/
namespace Sys2Proof.Machine

/-! ### Recovery -/
def strKey (kind vid addr : Nat) : Nat := kind * 2 ^ 60 + vid * 2 ^ 48 + addr
/-- The candidate slots of R115. -/
def strSlots (k : Nat) : Nat × Nat := (crc32c 0xFFFFFFFF (be 8 k) % 32768, crc32c 0 (be 8 k) % 32768)
def slotOwner (s : State) (i : Nat) : Option Nat := tget none s.str.slot i
def ownKey (e : StreamEntry) : Nat := strKey e.idKind e.idVid e.idAddr.toNat
/-- The stream whose key stands in a slot. -/
def findStream (s : State) (k : Nat) : Option Nat :=
  let (a, b) := strSlots k
  ((slotOwner s a).toList ++ (slotOwner s b).toList).find? (fun n => (strm s n).idKind != 0 && ownKey (strm s n) == k)
/-- R117: outcome (1 PASS, 2 duplicate, 3 rogue), the entry, and what RX_LOST and RX_OUT_OF_ORDER gain. -/
def judgeVector (e : StreamEntry) (seq : BitVec 16) : Nat × StreamEntry × Nat × Nat :=
  let h := e.histLen
  let full := 2 ^ h
  if e.takeAny then (1, { e with recSeq := seq, hist := BitVec.ofNat 64 (full - 1), takeAny := false }, 0, 0)
  else
    let d := sgn 16 (seq - e.recSeq).toNat
    if (h : Int) ≤ d ∨ d ≤ -(h : Int) then (3, e, 0, 0)
    else if 0 < d then
      let n := d.toNat
      let lost := ((List.range n).filter (fun i => !e.hist.toNat.testBit (h - 1 - i))).length
      (1, { e with recSeq := seq, hist := BitVec.ofNat 64 (e.hist.toNat * 2 ^ n % full + 1) }, lost, 0)
    else if e.hist.toNat.testBit (-d).toNat then (2, e, 0, 0)
    else (1, { e with hist := e.hist + BitVec.ofNat 64 (2 ^ (-d).toNat) }, 0, 1)
/-- R118. -/
def judgeMatch (e : StreamEntry) (seq : BitVec 16) : Nat × StreamEntry × Nat × Nat :=
  if e.takeAny then (1, { e with recSeq := seq, takeAny := false }, 0, 0)
  else
    let diff := seq - e.recSeq
    if diff = 0 then (2, e, 0, 0) else (1, { e with recSeq := seq }, 0, b2n (diff != 1))
/-- Where a tag of the port's kind stands, its sequence number and the key; or the port counter of a frame that skips recovery. -/
inductive TagFound where
  | skip (counter : Nat)
  | own
  | tag (pos : Nat) (seq : Nat) (key : Nat) (wrongLan : Bool)
/-- R109, R110, R114, R116. -/
def findTag (s : State) (f : RxFrame) : TagFound :=
  let o := f.body
  let n := o.length
  let R := (pset s f.port).rx
  let vs := vlanSet s f.port
  if R.rxKind = 3 then
    let pos := skipVlan vs o n 12
    let ls := octBe o (n - 4) 2
    if n < pos + 6 ∨ octBe o (n - 2) 2 ≠ 0x88FB ∨ ls % 4096 ≠ (n - pos) % 4096 then .skip 0
    else .tag (n - 6) (octBe o (n - 6) 2) (strKey 2 0 (octBe o 6 6)) (ls / 4096 != R.lan)
  else
    let pos := (skipTags vs o 3 12 f.removed).1
    let et := if R.rxKind = 1 then 0xF1C1 else 0x892F
    if octBe o pos 2 ≠ et ∨ n < pos + 6 then .skip 0
    else if R.rxKind = 2 then
      if octBe o 6 6 = (macOf s f.port).toNat then .own
      else if octBe o (pos + 2) 2 % 4096 ≠ (n - pos - 2) % 4096 then .skip 1
      else .tag pos (octBe o (pos + 4) 2) (strKey 2 0 (octBe o 6 6)) false
    else
      let vid := if 0 < f.removed then f.tci.toNat % 4096 else if vs.contains (octBe o 12 2) then octBe o 14 2 % 4096 else 0
      .tag pos (octBe o (pos + 4) 2) (strKey 1 vid (octBe o 0 6)) false
/-- Judge frame `f` for stream `n` (R117 to R121). -/
def judge (s : State) (n seq : Nat) : State × Nat :=
  let e := strm s n
  let (out, e', lost, ooo) := if e.algMatch then judgeMatch e (BitVec.ofNat 16 seq) else judgeVector e (BitVec.ofNat 16 seq)
  let s := setStrm s n (if out = 1 then { e' with lastPass := s.tm.count } else e')
  let s := cntStream (if lost = 0 then s else cntStream s n 5 lost) n (if out = 1 then 1 else if out = 2 then 2 else 4) 1
  let s := if ooo = 0 then s else cntStream s n 3 ooo
  (if out = 3 then raiseFirst s tgRogue n 48 1 else s, out)
/-- Recovery of a frame; none when it is discarded. -/
def recover (s : State) (f : RxFrame) : State × Option RxFrame :=
  let R := (pset s f.port).rx
  if R.rxKind = 0 ∨ f.fcsBad ∨ f.runt then (s, some f)
  else match findTag s f with
  | .skip i => (cntRed s f.port i, some f)
  | .own => (cntRed s f.port 3, none)
  | .tag pos seq key wrong =>
    let s := if wrong then cntRed s f.port 4 else s
    let f := { f with seq := BitVec.ofNat 16 seq }
    let unmatched := fun (s : State) => raiseFirst (cntRed s f.port 2) tgUnmatched f.port 48 2
    match findStream s key with
    | none => (unmatched s, some f)
    | some n =>
      let f := { f with stream := n }
      if (strm s n).recEn then
        let (s, out) := judge s n seq
        if out ≠ 1 ∧ R.dupMark = false then (s, none)
        else (s, some { f with red := out, duplicate := out != 1, body := if R.remove then f.body.take pos ++ f.body.drop (pos + 6) else f.body })
      else (unmatched s, some f)
/-- The sweep visits stream `n` now: once in each millisecond of the free-running count, at the phase of its first visit since SL came ON. -/
def sweepDue (s : State) (n : Nat) : Bool :=
  match tget none s.str.visit n with
  | none => true
  | some v => decide (v < s.tm.count) && (s.tm.count - v) % 1000000 == 0
/-- `REDUNDANCY_SWEEP_VISIT` (R119). A frame of the same cycle is judged first, so its row comes first (log 83). -/
def redundancySweepVisit (n : Nat) (s : State) : State :=
  let e := strm s n
  if isOn s dSL ∧ sweepDue s n = true then
    let s := { s with str := { s.str with visit := tset none s.str.visit n (some s.tm.count) } }
    if e.recEn ∧ e.takeAny = false ∧ e.lastPass + e.resetMs * 1000000 ≤ s.tm.count then
      raise (cntStream (setStrm s n { e with takeAny := true }) n 6 1) 48 0
    else s
  else s
def execRedundancySweepVisit (n : Nat) (s : State) : Host.Outcome State Fault Refusal := event (redundancySweepVisit n s)

/-! ### Delivery into a receive bobbin -/
/-- The six flags of a frame in the order of record bytes 2 and 3. -/
def flagsOf (f : RxFrame) : Nat := b2n (f.winX || f.winC) + b2n f.tagDepth * 2 + b2n f.lenConf * 4 + b2n f.csumBad * 8 + b2n f.runt * 16 + b2n f.unknownDa * 32
/-- Octets to deliver (R198, R454). -/
def deliverOctets (s : State) (f : RxFrame) : Octets := f.body ++ (if (pset s f.port).line.fcsKeep then f.fcs else [])
/-- The record of a received frame (R203). -/
def rxRec (f : RxFrame) (b hash : Nat) (code : BitVec 8) (length count : Nat) : Octets :=
  recordOf code.toNat (qualCode f.quality) 1 f.epoch f.colour 0 0
    (flagsOf f + b2n f.l3chk * 64 + b2n f.l4chk * 128 + f.red * 256 + f.removed * 1024 + f.cls * 4096)
    (b + f.stream * 2 ^ 18) length count (f.seq.toNat + f.tci.toNat * 2 ^ 16) (t64 f.stamp) 0 hash
/-- The checks of R199 on a receive descriptor. -/
def rxCheck (s : State) (B : Bobbin) (r : FabReply) : Option (BitVec 8) :=
  let v := ofLe (r.data.take 16)
  let len := bits v 64 16
  firstOf [(r.error, kMALFORMED_ADDRESS), (bits v 56 8 != 0 || bits v 80 48 != 0, kMALFORMED_RESERVED), (len == 0 || decide (16383 < len), kMALFORMED_LENGTH),
    (bits v 0 56 % 64 != 0 || !inWindow s B.window (bits v 0 56) len, kMALFORMED_ADDRESS)]
/-- What taking descriptors for a frame gives: codes of malformed ones, the buffers filled, and octets that found none. -/
structure Taken where
  bad : List (BitVec 8) := []
  parts : List (Nat × Octets) := []
  rest : Octets := []
deriving DecidableEq, Repr
/-- Take up to `avail` descriptors for `o`, their fetches answered by `l` (R198, R199). -/
def takeBufs (s : State) (B : Bobbin) : Nat → List FabReply → Octets → Taken → Taken
  | 0, _, o, t => { t with rest := o }
  | n + 1, l, o, t =>
    if o.isEmpty then t
    else
      let r := l.headD {}
      match rxCheck s B r with
      | some k => takeBufs s B n l.tail o { t with bad := t.bad ++ [k] }
      | none =>
        let v := ofLe (r.data.take 16)
        takeBufs s B n l.tail (o.drop (bits v 64 16)) { t with parts := t.parts ++ [(bits v 0 56, o.take (bits v 64 16))] }
/-- The promise of R233, where the bobbin is bound to a receive contract: its conditions hold, and the tokens are drawn. -/
def rxDoor (s : State) (b : Nat) (f : RxFrame) : State × Option Promise :=
  let B := bobn s b
  let n := B.contract
  let C := contr s n
  if B.cstate ≠ .bound ∨ C.img.rx = false then (s, none)
  else if f.port ≠ C.img.port ∨ C.img.maxFrame < f.rawLen then (s, none)
  else
    let C := refill C f.startCount
    if C.tok < cost f.rawLen then (setCt s n C, none)
    else (setCt s n { C with tok := C.tok - cost f.rawLen }, some { startAcc := f.startAcc, startCount := f.startCount, contract := n, bound := bound8 C.img, id := s.rx.nextId })
/-- A frame on a bobbin bound to a receive contract ends without a promise (R233, R251). -/
def rxUnpromised (s : State) (b : Nat) : State :=
  let B := bobn s b
  if B.cstate = .bound ∧ (contr s B.contract).img.rx then setCt s B.contract { contr s B.contract with rxNonconf := (contr s B.contract).rxNonconf + 1 } else s
/-- The frame's record is due; a promise stands with code `OK` only. -/
def rxComplete (s : State) (w : RxWrite) (code : BitVec 8) (length : Nat) : State :=
  let keep := code == kOK && w.promise.isSome
  let s := if keep then s else rxUnpromised s w.bobbin
  let rec_ : Rec := { src := some w.bobbin, index := w.index, count := w.count, promise := if keep then w.promise else none
                      bytes := patch (patch w.record 0 (le 1 code.toNat)) 8 (le 2 length ++ le 2 w.count) }
  let s := complete s rec_
  match w.promise with | some x => drainRx (ctSettle s x.contract) w.bobbin | none => drainRx s w.bobbin
/-- Bobbin `b` has a buffer posted that the block can take. -/
def hasBuffers (s : State) (b : Nat) : Bool := let B := bobn s b; B.st == .opened && B.next != B.hostIdx && bobPowered s b
/-- A receive descriptor of bobbin `b` that was posted while a frame is being written returns: the frame takes it (R198, R199). -/
def rxDescriptor (b : Nat) (r : FabReply) (s : State) : State :=
  let B := bobn s b
  match s.rx.writes.find? (fun w => w.bobbin == b && !w.rest.isEmpty) with
  | none => s
  | some w =>
    if hasBuffers s b = false then s
    else
      let m := 2 * bsize B
      let s := setBob s b { B with next := (B.next + 1) % m }
      let put := fun (s : State) (v : RxWrite) => { s with rx := { s.rx with writes := s.rx.writes.map (fun u => if u.id = w.id then v else u) } }
      match rxCheck s B r with
      | some k =>
        let s := put s { w with index := (w.index + 1) % m }
        complete (raise (cntBank s b 2 1) (bobGroup b) 2)
          { src := some b, index := w.index, count := 1, bytes := recordOf k.toNat (qualCode (nowQ s)) 1 0 0 0 0 0 b 0 1 0 (nowT64 s) 0 0 }
      | none =>
        let v := ofLe (r.data.take 16)
        noteDry (put s { w with parts := w.parts ++ [(bits v 0 56, w.rest.take (bits v 64 16))], rest := w.rest.drop (bits v 64 16), count := w.count + 1 }) w.frame.port w.frame.cls b
/-- What is posted goes to the frame being written, as long as it needs a buffer; then that frame is cut short (R198, R212, R213). -/
def feedWrites : Nat → Nat → List FabReply → State → State × List FabReply
  | 0, b, l, s => (shutWrites s b, l)
  | n + 1, b, l, s =>
    if s.rx.writes.any (fun w => w.bobbin == b && !w.rest.isEmpty) && hasBuffers s b then feedWrites n b l.tail (rxDescriptor b (l.headD {}) s)
    else (shutWrites s b, l)
/-- Deliver frame `f` into bobbin `b` (R121, R198, R202, R212, R213). -/
def toBobbin (s : State) (f : RxFrame) (b hash : Nat) (descs : List FabReply) : State :=
  let (s, descs) := feedWrites (bsize (bobn s b)) b descs s
  let B := bobn s b
  if f.duplicate then
    complete s { src := some b, index := B.next, count := 0, bytes := rxRec f b hash kRX_DUPLICATE_DISCARDED 0 0 }
  else
    let o := deliverOctets s f
    let m := 2 * bsize B
    let avail := occOf B.hostIdx B.next (bsize B)
    let t := takeBufs s B avail descs o {}
    let nbad := t.bad.length
    let count := t.parts.length
    let code := if f.truncated then kRX_TRUNCATED else if f.fcsBad then kRX_FCS else kOK
    let (s, pr) := rxDoor s b f
    let s := setBob s b { bobn s b with next := (B.next + nbad + count) % m }
    let s := (t.bad.zip (List.range nbad)).foldl (fun s e =>
      complete (raise (cntBank s b 2 1) (bobGroup b) 2)
        { src := some b, index := (B.next + e.2) % m, count := 1, bytes := recordOf e.1.toNat (qualCode (nowQ s)) 1 0 0 0 0 0 b 0 1 0 (nowT64 s) 0 0 }) s
    let octets := t.parts.foldl (fun a e => a + e.2.length) 0
    let w : RxWrite := { id := s.rx.nextId, bobbin := b, index := (B.next + nbad) % m, count := count, parts := t.parts
                         record := rxRec f b hash code octets count, code := code, frame := f, promise := pr, rest := t.rest }
    noteDry (if count = 0 then (let (s, w) := exhaust s w; rxComplete s w w.code octets)
      else { s with rx := { s.rx with nextId := s.rx.nextId + 1, writes := s.rx.writes ++ [w] } }) f.port f.cls b
/-- `DESCRIPTOR_FETCH_DONE` (R195, R198, R228, R459). -/
def descriptorFetchDone (b : Nat) (r : FabReply) (s : State) : State := if (bobn s b).kind = .receive then rxDescriptor b r s else txDescriptor b r s
def execDescriptorFetchDone (b : Nat) (r : FabReply) (s : State) : Host.Outcome State Fault Refusal := event (descriptorFetchDone b r s)
/-- Put the parts in memory. -/
def writeParts (s : State) (l : List (Nat × Octets)) (error : Bool) : State := l.foldl (fun s e => fabWrite s e.1 e.2 error) s
/-- The first `n` octets of the parts, and what follows them. -/
def splitParts : Nat → List (Nat × Octets) → List (Nat × Octets) × List (Nat × Octets)
  | _, [] => ([], [])
  | n, (a, o) :: t =>
    if o.length ≤ n then let (x, y) := splitParts (n - o.length) t; ((a, o) :: x, y)
    else ((a, o.take n) :: [], (a + n, o.drop n) :: t)
/-- `RX_BUFFER_WRITE_ACK`: every buffer write of delivery `rid` is acknowledged, or after `octets` octets one is in error (R459). -/
def rxBufferWriteAck (rid : Nat) (error : Bool) (octets : Nat) (s : State) : State :=
  match s.rx.writes.find? (fun w => w.id == rid) with
  | none => s
  | some w =>
    if error = false ∧ w.rest.isEmpty = false ∧ hasBuffers s w.bobbin then s
    else
    let total := w.parts.foldl (fun a e => a + e.2.length) 0
    let n := if error then min octets total else total
    let (x, y) := splitParts n w.parts
    let s := { s with rx := { s.rx with writes := s.rx.writes.filter (fun v => v.id != rid) } }
    let s := writeParts s x false
    let (s, w) := if error then (s, { w with rest := [] }) else exhaust s w
    if error then rxComplete (writeParts s y true) w kRX_TRUNCATED n else rxComplete s w w.code n
def execRxBufferWriteAck (rid : Nat) (error : Bool) (octets : Nat) (s : State) : Host.Outcome State Fault Refusal := event (rxBufferWriteAck rid error octets s)

/-! ### Core stream interface, receive -/
def csiCells (o : Octets) : Nat := ceilDiv o.length 64
/-- The metadata of R454. -/
def csiMeta (f : RxFrame) (len hash : Nat) (flood : Bool) (skein entry : Option Nat) : BitVec 256 :=
  BitVec.ofNat 256 (t64 f.stamp + qualCode f.quality * 2 ^ 64 + f.port * 2 ^ 66 + f.epoch * 2 ^ 71 + f.cls * 2 ^ 72 + f.colour * 2 ^ 76 + flagsOf f * 2 ^ 78
    + b2n f.l3chk * 2 ^ 84 + b2n f.l4chk * 2 ^ 85 + b2n f.fcsBad * 2 ^ 86 + b2n f.truncated * 2 ^ 87 + b2n f.duplicate * 2 ^ 88 + b2n flood * 2 ^ 89
    + f.red * 2 ^ 90 + f.stream * 2 ^ 92 + f.seq.toNat * 2 ^ 106 + f.removed * 2 ^ 122 + f.tci.toNat * 2 ^ 124 + hash * 2 ^ 140
    + b2n skein.isSome * 2 ^ 172 + skein.getD 0 * 2 ^ 173 + b2n entry.isSome * 2 ^ 185 + entry.getD 0 * 2 ^ 186
    + b2n f.contract.isSome * 2 ^ 202 + f.contract.getD 0 * 2 ^ 203 + f.daDest.toNat * 2 ^ 219 + len * 2 ^ 235)
def toCsi (s : State) (f : RxFrame) (hash : Nat) (flood : Bool) (skein entry : Option Nat) : State :=
  let k := sliceOf f.port
  let o := deliverOctets s f
  let q := tget [] s.rx.csi k
  if 1024 < q.foldl (fun a e => a + csiCells e.1) 0 + csiCells o then cntCsi s k 1 1
  else xoffTrackAll { s with rx := { s.rx with csi := tset [] s.rx.csi k (q ++ [(o, csiMeta f o.length hash flood skein entry)]) } } f.port
/-- `CSI_RX_TRANSFER`: READY is high and the oldest frame is handed off (R453 to R455). -/
def csiRxTransfer (k : Nat) (s : State) : State :=
  match tget [] s.rx.csi k with
  | [] => s
  | e :: t =>
    if isOn s (dMS k) then
      xoffTrackAll (cntCsi { s with rx := { s.rx with csi := tset [] s.rx.csi k t, csiLast := tset none s.rx.csiLast k (some e) } } k 0 1) (dfl e.2 66 5)
    else s
def execCsiRxTransfer (k : Nat) (s : State) : Host.Outcome State Fault Refusal := event (csiRxTransfer k s)

/-! ### Classification -/
/-- Counter `i` of slice `k`. -/
def sliceCnt (s : State) (k i : Nat) : Nat := (tget 0 s.ctr.slice (13 * k + i)).toNat
/-- A frame with the destination it ends with leaves the classifier (R146, R152, R153, R155, R165). -/
def leave (s : State) (f : RxFrame) (noTmpl : Bool) (hash : Nat) (descs : List FabReply) : State :=
  let k := sliceOf f.port
  let fl := flagsOf f + b2n noTmpl * 64
  let s := (List.range 7).foldl (fun s i => if fl.testBit i then cntSlice s k i 1 else s) s
  let s := if fl = 0 then s else raiseFirstSlice s tgFlag k 1 ((List.range 7).foldl (fun n i => n + sliceCnt s k i) 0)
  let invalid := fun (s : State) => let s := cntSlice s k 10 1; raiseFirstSlice s tgDest k 3 (sliceCnt s k 10)
  let bob := fun (s : State) (b : Nat) => if (bobn s b).st = .opened ∧ (bobn s b).kind = .receive ∧ bobPowered s b then toBobbin s f b hash descs else invalid s
  let spread := fun (s : State) (g : Nat) =>
    let G := spreadGroup s g
    if G.size = 0 then invalid s
    else
      let e := (G.base + hash * G.size / 2 ^ 32) % 65536
      let v := tget 0 s.spr.entry e
      if v.toNat.testBit 31 then toCsi s f hash false none (some e) else bob s (v.toNat % 262144)
  match f.dest with
  | some .drop => cntSlice s k 9 1
  | some (.bobbin b) => bob s b
  | some (.skein n) => toCsi s f hash false (some n) none
  | some (.spread g) => spread s g
  | some .stream => toCsi s f hash f.unknownDa none none
  | none =>
    let L := (pset s f.port).learn
    if f.daDest.toNat / 2 ^ 14 = 2 then spread s (f.daDest.toNat % 1024)
    else if f.unknownDa ∧ L.flood then spread s L.floodGroup
    else toCsi s f hash f.unknownDa none none
/-- One rule lookup (R143): the results of the chain, the counters, and whether RECIRC was set. -/
def lookup (s : State) (f : RxFrame) : State × RxFrame × Bool :=
  let k := sliceOf f.port
  let lo := 4096 * (2 * k + f.epoch)
  let l := ruleChain f.key lo 4 s.pc.rule
  let s := l.foldl (fun s e => if rAct e.2 49 1 = 1 then cntRule s k (rAct e.2 50 12) f.body.length else s) s
  let pick := fun {α : Type} (q : Rule → Option α) => firstVal q l
  let f := { f with
    cls := (pick (fun r => if rAct r 2 1 = 1 then some (rAct r 3 4) else none)).getD f.cls
    colour := (pick (fun r => if rAct r 7 1 = 1 then some (rAct r 8 2) else none)).getD f.colour
    dest := match pick (fun r => if rAct r 10 3 = 0 then none else some (destOf (rAct r 10 3) (rAct r 14 18))) with | some d => some d | none => f.dest
    contract := match pick (fun r => if rAct r 32 1 = 1 then some (rAct r 33 16) else none) with | some n => some n | none => f.contract
    tmpl2 := pick (fun r => if rAct r 63 1 = 1 then some (rAct r 64 6) else none)
    passTag := (pick (fun r => if rAct r 62 1 = 1 then some (rAct r 70 8) else none)).getD 0 }
  (s, f, l.any (fun e => rAct e.2 62 1 == 1))
/-- RECIRC_LIMIT (R149). -/
def recircLimit (s : State) (k : Nat) : State := let s := cntSlice s k 8 1; raiseFirstSlice s tgRecirc k 2 (sliceCnt s k 8)
/-- Tags, template, extraction and checks of a frame's first pass (R127 to R137, R157, R158). -/
def firstPass (s : State) (f : RxFrame) (descs : List FabReply) : State :=
  let p := f.port
  let k := sliceOf p
  let S := pset s p
  let vs := vlanSet s p
  let o := f.body
  let L := findL3 vs (redKinds S.rx.rxKind) f.removed o
  let tag := 0 < f.removed ∨ (vs.contains (octBe o 12 2) = true)
  let tci := if 0 < f.removed then f.tci.toNat else if vs.contains (octBe o 12 2) then octBe o 14 2 else 0
  let prof := S.parse
  let tm := selectTemplate s k prof L.etype
  let t : Template := match tm with | some i => template s k i | none => 0
  let (area, win) := if tm.isSome then extract t L.base o else (0, false)
  let (l3, l4, bad, len, winC) := if tm.isSome then rxChecks t L.base o else (false, false, false, false, false)
  let vid := tci % 4096
  let fid := if S.learn.perVlan then vid else S.learn.fid
  let da := stnSeen s fid (octBe o 0 6)
  let sa := octBe o 6 6
  let learns := S.learn.en && !((oct o 6).testBit 0) && sa != 0 && !f.fcsBad && !f.truncated && !f.runt && decide (f.red < 2)
  let f := { f with tagged := decide tag, vid := vid, pcp := tci / 8192, tagDepth := L.tagDepth, winX := win, winC := winC, lenConf := len, csumBad := bad, l3chk := l3, l4chk := l4
                    unknownDa := da.isNone, daDest := match da with | some i => (stn s i).dest | none => 0, tmpl1 := tm
                    epoch := b2n (s.pc.active.toNat.testBit k), colour := 0
                    cls := if tag then bits S.pcpMap.toNat (4 * (tci / 8192)) 4 else S.defClass }
  let s := if learns then learnLookup s fid sa (BitVec.ofNat 16 ((if s.stk.st = .none then 0 else instanceId s) * 32 + p)) else s
  let f := { f with key := keyOf f prof L.depth L.etype area tm false 0 0 }
  let (s, g, rc) := lookup s f
  let hash := hashOf (tm.map (template s k)) f.key o
  if rc then
    if (tget [] s.pc.recirc k).length < 64 then { s with pc := { s.pc with recirc := tset [] s.pc.recirc k (tget [] s.pc.recirc k ++ [g]) } }
    else leave (recircLimit s k) g tm.isNone hash descs
  else leave s g tm.isNone hash descs
/-- `RECIRCULATION_PASS` (R147 to R149). -/
def recirculationPass (k : Nat) (descs : List FabReply) (s : State) : State :=
  match tget [] s.pc.recirc k with
  | [] => s
  | f :: rest =>
    if isOn s (dPC k) then
      let s := cntSlice { s with pc := { s.pc with recirc := tset [] s.pc.recirc k rest } } k 7 1
      let S := pset s f.port
      let o := f.body
      let L := findL3 (vlanSet s f.port) (redKinds S.rx.rxKind) f.removed o
      let want := match f.tmpl2 with | some i => some i | none => f.tmpl1
      let tm := match want with | some i => if tValid (template s k i) then some i else none | none => none
      let (area, win) := match tm with | some i => extract (template s k i) L.base o | none => (0, false)
      let f := { f with winX := win }
      let f := { f with key := keyOf f S.parse L.depth L.etype area tm true f.cls f.colour }
      let (s, g, rc) := lookup s f
      let hash := hashOf (tm.map (template s k)) f.key o
      leave (if rc then recircLimit s k else s) g tm.isNone hash descs
    else s
def execRecirculationPass (k : Nat) (descs : List FabReply) (s : State) : Host.Outcome State Fault Refusal := event (recirculationPass k descs s)

/-! ### The receive MAC -/
/-- TPIDs that the receive profile removes. -/
def removable (R : RxProfile) (v : Nat) : Bool := (R.rm8100 && v == 0x8100) || (R.rm88a8 && v == 0x88A8) || (R.rmCustom && v == R.custom.toNat)
/-- R49: the frame without the leading tags removed, the first one's TCI, how many. -/
def stripTags (R : RxProfile) : Nat → Octets → Nat → BitVec 16 → Octets × Nat × BitVec 16
  | 0, o, n, t => (o, n, t)
  | k + 1, o, n, t =>
    if 16 ≤ o.length ∧ removable R (octBe o 12 2) then
      stripTags R k (o.take 12 ++ o.drop 16) (n + 1) (if n = 0 then BitVec.ofNat 16 (octBe o 14 2) else t)
    else (o, n, t)
/-- A frame that the MAC hands on: tag removal, recovery, first pass (R120). -/
def macDeliver (s : State) (f : RxFrame) (descs : List FabReply) : State :=
  let R := (pset s f.port).rx
  let (o, n, t) := stripTags R R.count f.body 0 0
  match recover s { f with body := o, removed := n, tci := t } with
  | (s, none) => s
  | (s, some f) => firstPass s f descs
/-- A MAC control frame: consumed and counted (R38 to R42). -/
def macControl (s : State) (p : Nat) (o : Octets) : State :=
  if octBe o 14 2 = 1 then pauseCore s p (octBe o 16 2)
  else if octBe o 14 2 = 0x101 then pfcCore s p (BitVec.ofNat 8 (oct o 17)) (BitVec.ofNat 128 ((List.range 8).foldl (fun a i => a + octBe o (18 + 2 * i) 2 * 2 ^ (16 * i)) 0))
  else cntPort s p 7 1
/-- The fields of a received shedding message (R54). -/
def shedOf (o : Octets) : ShedMsg :=
  { src := BitVec.ofNat 48 (octBe o 6 6), current := oct o 20, proposed := oct o 21, widths := BitVec.ofNat 8 (oct o 22), reason := oct o 23, txn := BitVec.ofNat 16 (octBe o 24 2) }
/-- What a shedding message does once counted (R55, R59). -/
def shedCore (s : State) (p : Nat) (o : Octets) : State :=
  let m := shedOf o
  match oct o 18 with
  | 1 => offerCore p m s | 2 => requestCore p m s | 3 => acceptCore p m s | 4 => declineCore p m s | 5 => readyCore p m s | 7 => abortCore p m s | _ => s
/-- The time-stamp point of a received frame: stamp, quality, and its instant as time with the steps out and as a count. -/
def stampRx (s : State) (f : RxFrame) (x : LaneStamp) : RxFrame × State :=
  let (t, s) := stampPoint s f.port false x
  ({ f with stamp := t, quality := nowQ s, startAcc := t96n t - (timeAt s (s.tm.now - x.ago)).2, startCount := s.tm.count - x.ago }, s)
/-- A whole frame, FCS included, as the MAC of port `p` finds it (R31 to R33, R38, R56, R62). `stack` handles a frame of
sub-format 0x02 of R54's EtherType on a stack port, and answers none on any other port. The model's choices: a frame of sub-format 0x01 with
another destination address is an ordinary frame (log 89); one of fewer than 18 octets counts as a fragment alone, and a runt with a correct
FCS in bin RX_64 (log 90). -/
def macReceive (stack : Nat → Octets → T96 → State → Option State) (p : Nat) (o : Octets) (x : LaneStamp) (descs : List FabReply) (s : State) : State :=
  let S := (pset s p).line
  let n := o.length
  let body := o.take (n - 4)
  let fcs := o.drop (n - 4)
  let good := fcs == fcsOf body
  let (fr, s) := stampRx s { port := p, body := body, fcs := fcs, rawLen := n } x
  if S.m < n then macDeliver (cntPort (cntPort s p 19 n) p 11 1) { fr with body := o.take S.m, fcs := [], truncated := true } descs
  else if n < 18 ∨ (n < 64 ∧ good = false) then cntPort (cntPort s p 19 n) p 10 1
  else if good = false then
    let s := cntPort (cntPort s p 19 n) p 8 1
    if S.fcsPass then macDeliver s { fr with fcsBad := true } descs else s
  else
    let s := countRx s p n (daKind o)
    let da := octBe o 0 6
    let et := octBe body 12 2
    if et = 0x8808 ∧ (da = 0x0180C2000001 ∨ da = (macOf s p).toNat) then macControl s p body
    else if et = 0x88B5 ∧ octBe body 14 2 = 0x5357 ∧ ¬(oct body 16 = 1 ∧ da ≠ 0x0180C200000E) then
      if oct body 16 = 1 then
        if oct body 17 = 1 ∧ 1 ≤ oct body 18 ∧ oct body 18 ≤ 7 then shedCore (cntPort s p 24 1) p body else cntPort s p 25 1
      else match (if oct body 16 = 2 then stack p body fr.stamp s else none) with
        | some t => t
        | none => cntPort s p 25 1
    else if n < 64 then macDeliver (cntPort s p 9 1) { fr with runt := true } descs
    else macDeliver s fr descs

/-- A frame of a listening port, FCS included, passes its filter (R381). -/
def listenMatch (s : State) (p : Nat) (o : Octets) : Bool :=
  let W := (pset s p).wake
  let n := o.length
  listening s p && pcsOn s p && decide (18 ≤ n) && o.drop (n - 4) == fcsOf (o.take (n - 4)) &&
  (List.range 8).all (fun i =>
    let m := (W.mask.toNat >>> (8 * i)) % 256
    decide (W.offset + i < n) && Nat.land (oct o (W.offset + i)) m == Nat.land ((W.pattern.toNat >>> (8 * i)) % 256) m)

/-! ### Core stream interface, transmit (R456, R457) -/
/-- The descriptor whose fields act as the metadata's do. -/
def csiDesc (md : BitVec 256) : BitVec 256 :=
  BitVec.ofNat 256 (dfl md 64 14 * 2 ^ 64 + b2n (dbit md 29) * 2 ^ 80 + b2n (dbit md 30) * 2 ^ 81 + b2n (dbit md 31) * 2 ^ 82 + b2n (dbit md 27) * 2 ^ 83
    + b2n (dbit md 28) * 2 ^ 84 + dfl md 17 4 * 2 ^ 88 + dfl md 21 6 * 2 ^ 96 + dfl md 32 16 * 2 ^ 112 + dfl md 48 16 * 2 ^ 128)
/-- The checks of R457. -/
def csiOk (s : State) (k : Nat) (md d : BitVec 256) : Bool :=
  let p := dfl md 0 5
  let K := skein s (dfl md 5 12)
  dfl md 78 178 == 0 && (pdef s p).isSome && sliceOf p == k && (line s p).up && K.valid && K.port == p &&
  decide (14 ≤ dLen d) && decide (14 ≤ dataLen d) && decide (finished (txProfile s p (dfl d 88 4)) (dataLen d) ≤ (pset s p).line.m) &&
  (!(dbit d 83 || dbit d 84) || tValid (template s k (dfl d 96 6)))
/-- `CSI_TX_FRAME`: a frame arrives while no claim of the interface waits. -/
def csiTxFrame (k : Nat) (md : BitVec 256) (data : Octets) (s : State) : State :=
  if isOn s (dMS k) = false ∨ s.tx.frames.any (fun f => f.origin == .csi k && f.stage == .claiming) then s
  else
    let d := csiDesc md
    if !csiOk s k md d || data.length != dLen d then cntCsi s k 3 1
    else
      let p := dfl md 0 5
      let P := txProfile s p (dfl d 88 4)
      let len := finished P (dataLen d)
      let (id, s) := newId s
      claim_ (cntCsi s k 2 1) { id := id, origin := .csi k, port := p, skein := dfl md 5 12, cls := (skein s (dfl md 5 12)).cls, desc := d, len := len
                                cells := ceilDiv len 64, data := data.take (dataLen d), stream := profStream P }
def execCsiTxFrame (k : Nat) (md : BitVec 256) (data : Octets) (s : State) : Host.Outcome State Fault Refusal := event (csiTxFrame k md data s)

/-! ### `STREAM.SET` (R106 to R108, R115, R315) -/
def useStreamSet (_ : Cmd) : List (Nat × Nat × Nat) := [(8, 0, 7), (9, 0, 7), (10, 0, 10), (12, 0, 16), (14, 0, 12), (16, 0, 48)]
def profileNames (s : State) (n : Nat) : Bool := s.port.set.any (fun e => e.2.tag.any (fun t => t.2.redKind != 0 && t.2.stream == n))
def streamFields (c : Cmd) (e : StreamEntry) : StreamEntry :=
  { e with genEn := fbit c 8 0, genDesc := fbit c 8 1, recEn := fbit c 8 2, algMatch := fbit c 8 3, idKind := fld c 8 4 2, histLen := fld c 9 0 7, resetMs := fld c 10 0 10
           genSeq := if fbit c 8 6 then BitVec.ofNat 16 (fld c 12 0 16) else e.genSeq, idVid := fld c 14 0 12, idAddr := fmac c 16 }
/-- The slot for stream `n` under its new key; none where both are another's. Where both are free it is the slot of initial value 0xFFFF_FFFF,
which the spec leaves open (log 97). -/
def takeSlot (s : State) (n k : Nat) : Option Nat :=
  let (a, b) := strSlots k
  [a, b].find? (fun i => match slotOwner s i with | none => true | some m => m == n)
def freeSlots (s : State) (n : Nat) : State := { s with str := { s.str with slot := s.str.slot.filter (fun e => e.2 != some n) } }
def bodyStreamSet (j : JEntry) (s : State) : StepRes :=
  let n := objNum j.cmd
  let e := strm s n
  let x := streamFields j.cmd e
  let key := ownKey x
  let same := e.idKind != 0 && ownKey e == key
  guarded [(x.histLen == 0 || decide (64 < x.histLen) || x.resetMs == 0 || decide (1000 < x.resetMs) || x.idKind == 3 || (x.idVid != 0 && x.idKind != 1), sBAD_OPERAND),
    (e.genEn && !x.genEn && profileNames s n, sBUSY),
    (x.idKind != 0 && (match findStream s key with | some m => m != n | none => false), sBAD_OPERAND),
    (x.idKind != 0 && (takeSlot s n key).isNone, sNO_ROOM)] s
    (let take := e.recEn != x.recEn || e.algMatch != x.algMatch || e.histLen != x.histLen || e.idKind != x.idKind || e.idVid != x.idVid || e.idAddr != x.idAddr
     let fresh := !(e.genEn || e.recEn) && (x.genEn || x.recEn)
     let s := setStrm s n { x with takeAny := take || x.takeAny }
     let s := if fresh then { s with ctr := { s.ctr with stream := tclear (7 * n) 7 s.ctr.stream } } else s
     stop sDONE (if x.idKind = 0 then freeSlots s n
       else if same then s
       else match takeSlot s n key with
         | some i => let s := freeSlots s n; { s with str := { s.str with slot := tset none s.str.slot i (some n) } }
         | none => s))
def execStreamSet (c : Cmd) (s : State) : Host.Outcome State Fault Refusal := instr 0x34 useStreamSet bodyStreamSet c s

/-! ### Templates and rules (R130, R151, R316 to R319) -/
def useTemplateWrite (_ : Cmd) : List (Nat × Nat × Nat) := [(8, 0, 64), (16, 0, 8)]
def bodyTemplateWrite (j : JEntry) (s : State) : StepRes :=
  let c := j.cmd
  let a := fld c 8 0 64
  let go := withRead j 64 1 s (fun r => match r with
    | none => stop sBAD_OPERAND s
    | some o =>
      let t : Template := BitVec.ofNat 512 (ofLe o)
      if templateOk t then stop sDONE { s with pc := { s.pc with tmpl := tset 0 s.pc.tmpl (objNum c) t } } else stop sBAD_OPERAND s)
  if j.stage = 1 then go else guarded [(a % 64 != 0 || !bufOk s c a (fld c 16 0 8) 64, sBAD_OPERAND)] s go
def execTemplateWrite (c : Cmd) (s : State) : Host.Outcome State Fault Refusal := instr 0x40 useTemplateWrite bodyTemplateWrite c s
def ruleImage (o : Octets) (i : Nat) : Rule :=
  let v := part o (144 * i) 144
  { value := BitVec.ofNat 512 (ofLe (part v 0 64)), mask := BitVec.ofNat 512 (ofLe (part v 64 64)), action := BitVec.ofNat 128 (ofLe (part v 128 16)) }
def commitWaits (s : State) (k : Nat) : Bool := (tget none s.pc.commit k).isSome
def standby (s : State) (k : Nat) : Nat := 1 - b2n (s.pc.active.toNat.testBit k)
def useRuleWrite (_ : Cmd) : List (Nat × Nat × Nat) := [(8, 0, 64), (16, 0, 8), (18, 0, 16)]
/-- 16 rules a step; the images were all checked before the first. -/
def ruleWriteStep (j : JEntry) (s : State) (o : Octets) (done : Nat) : StepRes :=
  let c := j.cmd
  let k := objNum c / 4096
  let cnt := fld c 18 0 16
  let n := min 16 (cnt - done)
  let at_ := 4096 * (2 * k + standby s k) + objNum c % 4096 + done
  let s := (List.range n).foldl (fun s i => { s with pc := { s.pc with rule := tset {} s.pc.rule (at_ + i) (ruleImage o (done + i)) } }) s
  if done + n = cnt then stop sDONE s else .wait s .ready 1 (BitVec.ofNat 64 (done + n)) (packed o)
/-- A `RULE.WRITE` of slice `k` is in progress (R318). -/
def ruleWriting (s : State) (k : Nat) : Bool := s.sq.journal.any (fun e => !e.task && e.opcode == 0x41 && objNum e.cmd / 4096 == k)
def bodyRuleWrite (j : JEntry) (s : State) : StepRes :=
  let c := j.cmd
  let k := objNum c / 4096
  let cnt := fld c 18 0 16
  let a := fld c 8 0 64
  let first := withRead j (144 * cnt) 2 s (fun r => match r with
    | none => stop sBAD_OPERAND s
    | some o => if (List.range cnt).all (fun i => ruleOk (ruleImage o i)) then ruleWriteStep j s o 0 else stop sBAD_OPERAND s)
  if j.stage = 1 then ruleWriteStep j s (unpacked j.scratch) j.progress.toNat
  else if j.stage = 2 then first
  else guarded [(cnt == 0 || decide (4096 < objNum c % 4096 + cnt) || a % 16 != 0 || !bufOk s c a (fld c 16 0 8) (144 * cnt), sBAD_OPERAND), (commitWaits s k, sBUSY)] s first
def execRuleWrite (c : Cmd) (s : State) : Host.Outcome State Fault Refusal := instr 0x41 useRuleWrite bodyRuleWrite c s
def useRuleCommit (_ : Cmd) : List (Nat × Nat × Nat) := [(8, 0, 1)]
/-- The new active bank's rules in the standby bank. -/
def copyBank (s : State) (k : Nat) : State :=
  let a := 4096 * (2 * k + 1 - standby s k)
  let b := 4096 * (2 * k + standby s k)
  let src := s.pc.rule.filter (fun e => decide (a ≤ e.1) && decide (e.1 < a + 4096))
  { s with pc := { s.pc with rule := src.foldl (fun t e => tset {} t (b + e.1 - a) e.2) (tclear b 4096 s.pc.rule) } }
/-- A commit completes (R151). -/
def commitEnd (s : State) (k : Nat) : StepRes :=
  let s := if tget none s.pc.commit k = some true then copyBank s k else s
  let s := { s with pc := { s.pc with commit := tset none s.pc.commit k none } }
  .done sDONE (BitVec.ofNat 64 (b2n (s.pc.active.toNat.testBit k))) (raise (cntSlice s k 12 1) (32 + k) 0)
/-- `RULE.COMMIT` (R151, R318). One whose commit an internal fault left waiting is completed by a further one (R350). -/
def bodyRuleCommit (j : JEntry) (s : State) : StepRes :=
  let c := j.cmd
  let k := objNum c / 4096
  if j.stage = 1 then commitEnd s k
  else guarded [(objNum c % 4096 != 0, sBAD_OPERAND), (s.sq.journal.any (fun e => !e.task && e.opcode == 0x42 && objNum e.cmd / 4096 == k) || ruleWriting s k, sBUSY)] s
    (let s := if commitWaits s k then s
              else { s with pc := { s.pc with active := setBitAt s.pc.active k (!s.pc.active.toNat.testBit k), commit := tset none s.pc.commit k (some (fbit c 8 0)) } }
     if oldEpoch s k then .wait s (.ruleDrain k) 1 0 [] else commitEnd s k)
def execRuleCommit (c : Cmd) (s : State) : Host.Outcome State Fault Refusal := instr 0x42 useRuleCommit bodyRuleCommit c s
def useRuleRead (_ : Cmd) : List (Nat × Nat × Nat) := [(8, 0, 64), (16, 0, 8), (17, 0, 1)]
def ruleBytes (r : Rule) : Octets := le 64 r.value.toNat ++ le 64 r.mask.toNat ++ le 16 r.action.toNat
def bodyRuleRead (j : JEntry) (s : State) : StepRes :=
  let c := j.cmd
  let k := objNum c / 4096
  let a := fld c 8 0 64
  let o := if j.stage = 1 then unpacked j.scratch.tail else ruleBytes (rule s k (fld c 17 0 1) (objNum c % 4096))
  let act := if j.stage = 1 then j.scratch.headD 0 else b2n (s.pc.active.toNat.testBit k)
  let go := withWrite j a o 1 (act :: packed o) s (fun s => .done sDONE (BitVec.ofNat 64 act) s)
  if j.stage = 1 then go else guarded [(!bufOk s c a (fld c 16 0 8) 144, sBAD_OPERAND)] s go
def execRuleRead (c : Cmd) (s : State) : Host.Outcome State Fault Refusal := instr 0x43 useRuleRead bodyRuleRead c s

end Sys2Proof.Machine
end

