-- ==== Sys2Proof/Machine/Stack.lean ====
section
/-! DEFINITION. Stacks (R423 to R443, R449): frames and links, heartbeats and reach, time, joining, the Distaff's approval,
partition and healing; `STACK.*` (R330) and plied ports (R305, R444 to R447). -/
namespace Sys2Proof.Machine

/-! ### Links and frames (R424 to R427) -/
def ownInst (s : State) : Nat := instanceId s
/-- The other instances of the own device, eight instances numbered together (log 51). -/
def dieMates (s : State) : List Nat := ((List.range 8).map (fun i => 8 * (ownInst s / 8) + i)).filter (· != ownInst s)
def stkLinks (s : State) : List StackLink :=
  (dieMates s).map .die ++ ((List.range 32).filter (fun p => s.stk.portMask.toNat.testBit p)).map .port
def linkKey : StackLink → Nat
  | .die i => i
  | .port p => 32 + p
def linkOf (s : State) (l : StackLink) : LinkInfo := tget {} s.stk.link (linkKey l)
def setLink (s : State) (l : StackLink) (x : LinkInfo) : State := { s with stk := { s.stk with link := tset {} s.stk.link (linkKey l) x } }
def stkNum : StkState → Nat
  | .none => 0 | .joining => 1 | .member => 2 | .distaff => 3 | .orphan => 4 | .merging => 5
def ownHead (s : State) : StackHead :=
  { sender := ownInst s, state := stkNum s.stk.st, distaff := s.stk.distaff, hops := s.stk.hops, gen := s.stk.gen }
/-- The 64 octets of R425 for link `l`. -/
def stkOctets (s : State) (l : StackLink) (type : Nat) (h : StackHead) (body : Octets) : Octets :=
  let sa := match l with | .die _ => 0 | .port p => (macOf s p).toNat
  let o := be 6 0x0180C200000E ++ be 6 sa ++ be 2 0x88B5 ++ be 2 0x5357 ++ be 1 2 ++ be 1 1 ++ be 1 type ++ be 1 (h.sender % 32 + h.state * 32) ++
    be 1 (h.distaff % 32) ++ be 1 h.hops ++ be 4 h.gen ++ (body ++ List.replicate 34 0).take 34
  o ++ fcsOf o
/-- Send a frame on a link: on the bus at once, on a stack port that is up as an own control frame of R46. -/
def sendStk (s : State) (type : Nat) (h : StackHead) (body : Octets) (l : StackLink) : State :=
  match l with
  | .die _ => { s with stk := { s.stk with sent := s.stk.sent ++ [{ link := l, octets := stkOctets s l type h body }] } }
  | .port p =>
    let o := stkOctets s l type h body
    if (line s p).up then sendOwn s p (if type = 1 then .heartbeat o else if type = 2 then .time o else .stack o) else s
def sendAll (s : State) (type : Nat) (h : StackHead) (body : Octets) (ls : List StackLink) : State :=
  ls.foldl (fun s l => sendStk s type h body l) s
/-- The bus carries what this command sends. -/
def busIdle (s : State) : State := { s with stk := { s.stk with sent := [] } }
def inStack (s : State) : Bool := isOn s dSL && s.stk.st != .none
/-- A frame may arrive on the link. -/
def linkOk (s : State) (l : StackLink) : Bool :=
  match l with
  | .die i => decide (i < 32) && i != ownInst s
  | .port p => s.stk.portMask.toNat.testBit p && wireOn s p
/-- A frame that arrives on a stack port is a frame its MAC receives (R62). -/
def linkRx (s : State) (l : StackLink) : State := match l with | .die _ => s | .port p => countRx s p 64 1
def stkRow (l : StackLink) (s : State) (k : State → State) : State :=
  if inStack s && linkOk s l then k (linkRx (busIdle s) l) else s
/-- The receive stamp of a frame that arrives on the link: a stack port's own, or that of the bus boundary, which the word reaches now (R424). -/
def linkStamp (l : StackLink) (x : LaneStamp) (s : State) : Int × State :=
  match l with
  | .die _ => ((t96n (nowT s) : Nat), s)
  | .port p => let (t, s) := stampPoint s p false x; ((t96n t : Nat), s)
def stampRow (l : StackLink) (x : LaneStamp) (s : State) (k : Int → State → State) : State :=
  stkRow l s (fun s => let (t, s) := linkStamp l x s; k t s)
/-- Each (type, requester, tag) is passed on once in any 1 ms (R427). -/
def relay (s : State) (type requester tag : Nat) (h : StackHead) (body : Octets) (ls : List StackLink) : State :=
  let l := s.stk.relayed.filter (fun e => decide (s.tm.now < e.2.2.2 + 1000000))
  if l.any (fun e => e.1 == type && e.2.1 == requester && e.2.2.1 == tag) then s
  else sendAll { s with stk := { s.stk with relayed := l ++ [(type, requester, tag, s.tm.now)] } } type h body ls
def otherLinks (s : State) (l : StackLink) : List StackLink := (stkLinks s).filter (· != l)

/-! ### Withdrawal of a contract (R249) -/
def withdrawCt (s : State) (n : Nat) : State :=
  let C := contr s n
  let s := setCt s n { C with st := .withdrawing }
  let s := match C.bobbin with | some b => setBob s b { bobn s b with cstate := .withdrawn } | none => s
  ctSettle s n
def stackContracts (s : State) (q : Contract → Bool) : List Nat := tkeys (fun _ C => C.st != .free && C.img.stackMask != 0 && q C) s.ct.tab

/-! ### Reach (R428, R429, R438, R443) -/
def reachable (s : State) (i : Nat) : Bool := i == ownInst s || s.stk.reach.toNat.testBit i
/-- Every instance of the mask but this one is reachable. -/
def maskReach (s : State) (m : BitVec 32) : Bool := (List.range 32).all (fun i => !m.toNat.testBit i || reachable s i)
def freshOf (s : State) (i : Nat) : Nat := tget 0 s.stk.fresh i
/-- The count at which instance `i`'s entry changed last. -/
def freshCount (s : State) (i : Nat) : Nat := s.tm.count - (s.tm.now - freshOf s i)
def becomeReachable (s : State) (i : Nat) : State :=
  let again := s.stk.ever.toNat.testBit i && s.stk.members.toNat.testBit i && s.stk.st != .merging
  let s := { s with stk := { s.stk with reach := setBitAt s.stk.reach i true, ever := setBitAt s.stk.ever i true } }
  let s := raiseIf again s 62 3
  (stackContracts s (fun C => C.suspended && C.reachAt.isNone && C.img.stackMask.toNat.testBit i)).foldl
    (fun s n => if maskReach s (contr s n).img.stackMask then setCt s n { contr s n with reachAt := some s.tm.now } else s) s
/-- The reach vector offered by a heartbeat: an entry that changes is fresh again (log 52). -/
def mergeEntry (reach : BitVec 256) (s : State) (i : Nat) : State :=
  let x := bits reach.toNat (8 * i) 8
  let v := (tget 0 s.stk.v i).toNat
  let d := (x + 256 - v) % 256
  let stale := !s.stk.reach.toNat.testBit i
  if (1 ≤ d ∧ d ≤ 127) ∨ (stale ∧ d ≠ 0) then
    let s := { s with stk := { s.stk with v := tset 0 s.stk.v i (BitVec.ofNat 8 x), fresh := tset 0 s.stk.fresh i s.tm.now } }
    if stale then becomeReachable s i else s
  else s
def mergeReach (s : State) (reach : BitVec 256) : State := (List.range 32).foldl (mergeEntry reach) s
def dropSteps (s : State) : State :=
  { s with tu := { s.tu with pend := s.tu.pend.filter (fun e => match e.2 with | .stackStep _ => false | _ => true) } }
def stepPending (s : State) : Bool := s.tu.pend.any (fun e => match e.2 with | .stackStep _ => true | _ => false)
/-- A member whose Distaff is lost (R439). -/
def becomeOrphan (s : State) : State :=
  dropSteps { s with stk := { s.stk with st := .orphan, hops := 0xFF, upstream := none, quality := some .holdover, offsets := [] } }
/-- Contract `n` is suspended, its cause interval running from the last change of instance `i`'s entry (R438). -/
def suspendCt (i : Nat) (s : State) (n : Nat) : State :=
  let C := contr s n
  setCt s n (if C.suspended then { C with reachAt := none } else { C with suspended := true, suspFrom := freshCount s i, reachAt := none })
/-- Instance `i` becomes unreachable. That its Distaff's loss makes a member an orphan is left to the Spindle's routine, which the raise in G62
calls (R449); with no raise, because the mask does not hold the Distaff, and in a merge window it follows at once (R429). -/
def unreach (s : State) (i : Nat) : State :=
  if i = ownInst s ∨ s.stk.reach.toNat.testBit i = false then s
  else
    let s := { s with stk := { s.stk with reach := setBitAt s.stk.reach i false } }
    let s := raiseIf (s.stk.members.toNat.testBit i) s 62 1
    let s := (stackContracts s (fun C => C.img.stackMask.toNat.testBit i)).foldl (suspendCt i) s
    if i = s.stk.distaff ∧ (s.stk.st = .merging ∨ s.stk.st = .member ∧ s.stk.members.toNat.testBit i = false) then becomeOrphan s else s
/-- `HEARTBEAT_TICK`, each microsecond (R428). -/
def reachOctets (s : State) : Octets := (List.range 32).map (fun i => tget 0 s.stk.v i)
def heartbeatTick (s : State) : State :=
  if inStack s ∧ s.stk.hbAt + 1000 ≤ s.tm.now then
    let s := busIdle s
    let k := s.stk
    let me := ownInst s
    let s := { s with stk := { k with own := k.own + 1, hbAt := s.tm.now, v := tset 0 k.v me (k.own + 1), fresh := tset 0 k.fresh me s.tm.now } }
    sendAll s 1 (ownHead s) (reachOctets s) (stkLinks s)
  else s
def execHeartbeatTick (s : State) : Host.Outcome State Fault Refusal := event (heartbeatTick s)
/-- `REACH_STALE`: 8 µs without a change of entry `i` (R429). -/
def reachStale (i : Nat) (s : State) : State := if inStack s ∧ freshOf s i + 8000 ≤ s.tm.now then unreach s i else s
def execReachStale (i : Nat) (s : State) : Host.Outcome State Fault Refusal := event (reachStale i s)
/-- `LINK_HEARTBEAT_LOSS` (R429), once until a heartbeat arrives again. -/
def linkHeartbeatLoss (l : StackLink) (s : State) : State :=
  let k := linkOf s l
  match k.heard with
  | some t => if inStack s ∧ k.lossRaised = false ∧ t + 8000 ≤ s.tm.now then raise (setLink s l { k with lossRaised := true }) 62 0 else s
  | none => s
def execLinkHeartbeatLoss (l : StackLink) (s : State) : Host.Outcome State Fault Refusal := event (linkHeartbeatLoss l s)

/-! ### Healing (R441, R442) -/
/-- Enter the merge window under a generation and Distaff. -/
def enterMerging (s : State) (gen distaff : Nat) : State :=
  dropSteps { s with stk := { s.stk with
    st := .merging, gen := gen, distaff := distaff, hops := 0xFF, upstream := none, quality := some .holdover, mergeAt := s.tm.now, offsets := []
    link := tmap {} (fun _ k => { k with timeAt := none }) s.stk.link } }
/-- The received generation and Distaff win over the own ones. -/
def wins (s : State) (h : StackHead) : Bool := decide (s.stk.gen < h.gen) || (h.gen == s.stk.gen && decide (h.distaff < s.stk.distaff))
def sameStack (s : State) (h : StackHead) : Bool := h.gen == s.stk.gen && h.distaff == s.stk.distaff
def adopt (s : State) (h : StackHead) : State :=
  let s := if s.stk.st = .member ∨ s.stk.st = .distaff then (stackContracts s (fun C => C.st == .admitted)).foldl withdrawCt s else s
  enterMerging s h.gen h.distaff
/-- A frame of the Distaff that a joining instance named (R431, log 53). -/
def joinHears (s : State) (h : StackHead) : State :=
  if s.stk.st = .joining ∧ h.distaff = s.stk.distaff ∧ (h.state = 2 ∨ h.state = 3) then
    { s with stk := { s.stk with joinHeard := true, joinGen := h.gen } }
  else s
/-- `HEARTBEAT` (R428, R429, R441). -/
def heartbeatCore (l : StackLink) (h : StackHead) (reach : BitVec 256) (s : State) : State :=
  let s := setLink s l { linkOf s l with heard := some s.tm.now, lossRaised := false }
  let s := { s with stk := { s.stk with genSeen := tset 0 s.stk.genSeen h.sender h.gen } }
  let s := joinHears s h
  if sameStack s h then
    let s := mergeReach s reach
    if s.stk.st = .orphan ∧ reachable s s.stk.distaff ∧ s.stk.distaff ≠ ownInst s then enterMerging s h.gen h.distaff else s
  else if s.stk.st != .joining && wins s h then mergeReach (adopt s h) reach
  else s
def heartbeat (l : StackLink) (h : StackHead) (reach : BitVec 256) (s : State) : State := stkRow l s (heartbeatCore l h reach)
def execHeartbeat (l : StackLink) (h : StackHead) (reach : BitVec 256) (s : State) : Host.Outcome State Fault Refusal := event (heartbeat l h reach s)
/-- Mean of values in units of 2^-16 ns, rounded toward zero (log 54). -/
def meanOf (l : List Int) : Int := sdiv (l.foldl (· + ·) 0) l.length
/-- `MERGE_WINDOW_END`: the step waits for the boundary, where TimeOps' `applyChange` makes the instance MEMBER (R442). A
window without a TIME frame has no mean, and its step is a free value. -/
def mergeWindowEnd (s : State) : State :=
  if inStack s ∧ s.stk.st = .merging ∧ s.stk.mergeAt + 16000000 ≤ s.tm.now ∧ stepPending s = false then
    let (o, s) := if s.stk.offsets.isEmpty then (let (v, s) := freeWord s; (v.toInt, s)) else (meanOf s.stk.offsets, s)
    { s with tu := { s.tu with pend := s.tu.pend ++ [(8, .stackStep (-o))] } }
  else s
def execMergeWindowEnd (s : State) : Host.Outcome State Fault Refusal := event (mergeWindowEnd s)
/-- `SUSPENSION_END`: 17 ms after the last instance became reachable (R443). -/
def suspensionEnd (n : Nat) (s : State) : State :=
  let C := contr s n
  match C.reachAt with
  | some t =>
    if isOn s dSL ∧ C.suspended ∧ t + 17000000 ≤ s.tm.now then
      setCt s n { C with suspended := false, reachAt := none, pastSusp := C.pastSusp ++ [(C.suspFrom, s.tm.count)] }
    else s
  | none => s
def execSuspensionEnd (n : Nat) (s : State) : Host.Outcome State Fault Refusal := event (suspensionEnd n s)

/-! ### Time (R433 to R435) -/
def timeBody (s : State) : Octets := t96wire (nowT s) ++ be 1 (qualCode (nowQ s))
def sendsTime (s : State) : Bool := s.stk.st == .distaff || ((s.stk.st == .member || s.stk.st == .merging) && s.stk.upstream.isSome)
/-- `TIME_FRAME_TICK`, every 16 µs. -/
def timeFrameTick (s : State) : State :=
  if inStack s ∧ sendsTime s = true ∧ s.stk.timeAt + 16000 ≤ s.tm.now then
    let s := busIdle s
    sendAll { s with stk := { s.stk with timeAt := s.tm.now } } 2 (ownHead s) (timeBody s) (stkLinks s)
  else s
def execTimeFrameTick (s : State) : Host.Outcome State Fault Refusal := event (timeFrameTick s)
/-- Link `a` comes before link `b` as an upstream: fewer hops, an on-die link, the lower sender. -/
def betterLink (s : State) (a b : StackLink) : Bool :=
  let x := linkOf s a
  let y := linkOf s b
  let die : StackLink → Nat := fun l => match l with | .die _ => 0 | .port _ => 1
  decide (x.hops < y.hops) || (x.hops == y.hops && (decide (die a < die b) || (die a == die b && decide (x.sender < y.sender))))
def carriesTime (s : State) (l : StackLink) : Bool := match (linkOf s l).timeAt with | some t => decide (s.tm.now < t + 64000) | none => false
def chooseUpstream (s : State) : State :=
  let c := ((stkLinks s).filter (carriesTime s)).foldl (fun (a : Option StackLink) l => match a with | none => some l | some b => if betterLink s l b then some l else a) none
  { s with stk := { s.stk with upstream := c, hops := match c with | some l => (linkOf s l).hops + 1 | none => 0xFF } }
/-- The servo of R435 for one offset. -/
def servo (s : State) (o : Int) : State :=
  if 65536000 ≤ o ∨ o ≤ -65536000 then
    { s with tu := { s.tu with pend := s.tu.pend ++ [(8, .stackStep (-o))] }, stk := { s.stk with acc := 0, n := 0, aPrev := 0 } }
  else
    let k := { s.stk with acc := s.stk.acc + o, n := s.stk.n + 1 }
    if k.n = 16 then
      let a := sdiv k.acc 16
      let drift := sdiv ((a - k.aPrev) * 65536) 256000
      let pull := sdiv (a * 65536) 1024000
      let rate := clamp (-4294967) 4294967 (s.tu.rate - drift - pull)
      { s with tu := { s.tu with pend := s.tu.pend ++ [(8, .rate rate)] }, stk := { k with aPrev := a, acc := 0, n := 0 } }
    else { s with stk := k }
/-- What a TIME frame of the upstream does, once the link's delay is known. -/
def steer (s : State) (l : StackLink) (origin rx : Int) : State :=
  let k := linkOf s l
  if k.delays.isEmpty || stepPending s then s
  else
    let o := (rx - meanOf k.delays) - origin
    match s.stk.st with
    | .joining => if s.stk.joinStepped then s else { s with tu := { s.tu with pend := s.tu.pend ++ [(8, .stackStep (-o))] } }
    | .merging => { s with stk := { s.stk with offsets := (o :: s.stk.offsets).take 16 } }
    | .member => servo s o
    | _ => s
def mayFollow (s : State) : Bool := s.stk.st == .joining || s.stk.st == .member || s.stk.st == .merging
/-- The link whose time the instance follows: its upstream, or the even instance of its plied pair (R433, R445). -/
def followed (s : State) : Option StackLink := if s.stk.reserved then some (.die (ownInst s - 1)) else s.stk.upstream
/-- `TIME` (R433, R435). -/
def timeCore (l : StackLink) (h : StackHead) (origin rx : Int) (s : State) : State :=
  let s := joinHears s h
  if mayFollow s && sameStack s h && h.hops != 0xFF then
    let s := setLink s l { linkOf s l with timeAt := some s.tm.now, hops := h.hops, sender := h.sender }
    let s := if s.stk.upstream.isNone then chooseUpstream s else s
    if followed s = some l then steer { s with stk := { s.stk with hops := h.hops + 1 } } l origin rx else s
  else s
def timeRow (l : StackLink) (h : StackHead) (origin : Int) (x : LaneStamp) (_ : Quality) (s : State) : State := stampRow l x s (timeCore l h origin)
def execTime (l : StackLink) (h : StackHead) (origin : Int) (x : LaneStamp) (q : Quality) (s : State) : Host.Outcome State Fault Refusal := event (timeRow l h origin x q s)
/-- `UPSTREAM_TIMEOUT`: 64 µs without a TIME frame on the upstream (R433). -/
def upstreamTimeout (s : State) : State :=
  match s.stk.upstream with
  | some l => if inStack s && !carriesTime s l then chooseUpstream s else s
  | none => s
def execUpstreamTimeout (s : State) : Host.Outcome State Fault Refusal := event (upstreamTimeout s)
/-- `DELAY_REQ_TICK`, each 1 ms (R434). A request on the bus takes its transmit stamp now, one on a stack port at its time-stamp point. -/
def delayReqTick (s : State) : State :=
  if inStack s ∧ s.stk.delayAt + 1000000 ≤ s.tm.now then
    let s := busIdle { s with stk := { s.stk with delayAt := s.tm.now } }
    (stkLinks s).foldl (fun s l =>
      let k := linkOf s l
      sendStk (setLink s l { k with reqSeq := k.reqSeq + 1, t1 := (t96n (nowT s) : Nat) }) 3 (ownHead s) (be 2 (k.reqSeq + 1).toNat) l) s
  else s
def execDelayReqTick (s : State) : Host.Outcome State Fault Refusal := event (delayReqTick s)
def delayReqCore (l : StackLink) (seq : BitVec 16) (rx : Int) (s : State) : State :=
  sendStk s 4 (ownHead s) (be 2 seq.toNat ++ t96wire (nT96 rx) ++ t96wire (nowT s)) l
def delayReq (l : StackLink) (_ : StackHead) (seq : BitVec 16) (x : LaneStamp) (s : State) : State := stampRow l x s (delayReqCore l seq)
def execDelayReq (l : StackLink) (h : StackHead) (seq : BitVec 16) (x : LaneStamp) (s : State) : Host.Outcome State Fault Refusal := event (delayReq l h seq x s)
def delayRespCore (l : StackLink) (seq : BitVec 16) (t2 t3 t4 : Int) (s : State) : State :=
  let k := linkOf s l
  if seq = k.reqSeq then setLink s l { k with delays := (Int.fdiv ((t4 - k.t1) - (t3 - t2)) 2 :: k.delays).take 16 } else s
def delayResp (l : StackLink) (_ : StackHead) (seq : BitVec 16) (t2 t3 : Int) (x : LaneStamp) (s : State) : State := stampRow l x s (delayRespCore l seq t2 t3)
def execDelayResp (l : StackLink) (h : StackHead) (seq : BitVec 16) (t2 t3 : Int) (x : LaneStamp) (s : State) : Host.Outcome State Fault Refusal :=
  event (delayResp l h seq t2 t3 x s)

/-! ### Joining (R431) and leaving (R432) -/
def toDistaff (s : State) : List StackLink := s.stk.upstream.toList
/-- The Distaff's answer to a JOIN_REQ. -/
def joinAnswer (s : State) (h : StackHead) : Nat :=
  if h.distaff ≠ ownInst s then 3 else if s.stk.members.toNat.testBit h.sender = false then 1 else if reachable s h.sender then 2 else 0
def joinReqCore (l : StackLink) (h : StackHead) (s : State) : State :=
  if s.stk.st = .distaff then
    sendStk s 6 (ownHead s) (be 1 h.sender ++ be 1 (joinAnswer s h) ++ be 4 s.stk.members.toNat) l
  else relay s 5 h.sender 0 h [] (match s.stk.upstream with | some u => [u] | none => otherLinks s l)
def joinReq (l : StackLink) (h : StackHead) (s : State) : State := stkRow l s (joinReqCore l h)
def execJoinReq (l : StackLink) (h : StackHead) (s : State) : Host.Outcome State Fault Refusal := event (joinReq l h s)
def joinAckCore (l : StackLink) (h : StackHead) (inst result : Nat) (members : BitVec 32) (s : State) : State :=
  if inst = ownInst s then
    if s.stk.st = .joining ∧ s.stk.joinAck.isNone then
      { s with stk := { s.stk with joinAck := some result, members := if result = 0 then members else s.stk.members } }
    else s
  else relay s 6 inst 0 h (be 1 inst ++ be 1 result ++ be 4 members.toNat) (otherLinks s l)
def joinAck (l : StackLink) (h : StackHead) (inst result : Nat) (members : BitVec 32) (s : State) : State := stkRow l s (joinAckCore l h inst result members)
def execJoinAck (l : StackLink) (h : StackHead) (inst result : Nat) (members : BitVec 32) (s : State) : Host.Outcome State Fault Refusal := event (joinAck l h inst result members s)
def leaveCore (l : StackLink) (h : StackHead) (s : State) : State := relay (unreach s h.sender) 10 h.sender 0 h [] (otherLinks s l)
def leaveRow (l : StackLink) (h : StackHead) (s : State) : State := stkRow l s (leaveCore l h)
def execLeave (l : StackLink) (h : StackHead) (s : State) : Host.Outcome State Fault Refusal := event (leaveRow l h s)

/-! ### Approval of cross-instance contracts (R437) -/
def namesAny (a b : BitVec 32) : Bool := a &&& b != 0
/-- The Distaff's decision: 0 approved, 1 a cross admission is pending, 2 an instance is unreachable. -/
def approval (s : State) (mask : BitVec 32) : Nat :=
  if maskReach s mask = false then 2 else if s.stk.pending.any (fun e => namesAny e.mask mask) then 1 else 0
def admitBody (m : AdmitMsg) : Octets := be 1 m.requester ++ be 2 m.contract.toNat ++ be 4 m.mask.toNat ++ be 2 m.tag.toNat
def respBody (m : AdmitMsg) : Octets := be 1 m.requester ++ be 2 m.contract.toNat ++ be 2 m.tag.toNat ++ be 1 m.result
def releaseBody (m : AdmitMsg) : Octets := be 1 m.requester ++ be 2 m.contract.toNat ++ be 2 m.tag.toNat
def admitReqCore (l : StackLink) (h : StackHead) (m : AdmitMsg) (s : State) : State :=
  if s.stk.st = .distaff then
    let r := approval s m.mask
    let s := if r = 0 then { s with stk := { s.stk with pending := s.stk.pending ++ [{ requester := m.requester, contract := m.contract, mask := m.mask, tag := m.tag, at_ := s.tm.now }] } } else s
    sendStk s 8 (ownHead s) (respBody { m with result := r }) l
  else relay s 7 m.requester m.tag.toNat h (admitBody m) (toDistaff s)
def admitReq (l : StackLink) (h : StackHead) (m : AdmitMsg) (s : State) : State := stkRow l s (admitReqCore l h m)
def execAdmitReq (l : StackLink) (h : StackHead) (m : AdmitMsg) (s : State) : Host.Outcome State Fault Refusal := event (admitReq l h m s)
/-- The ring whose instruction waits under the tag. -/
def waiter (s : State) (tag : BitVec 16) : Option Nat :=
  (List.range 8).find? (fun r => match tget none s.stk.reply r with | some (.waiting _ t) => t == tag | _ => false)
def setReply (s : State) (r : Nat) (x : Option StkReply) : State := { s with stk := { s.stk with reply := tset none s.stk.reply r x } }
def admitRespCore (l : StackLink) (h : StackHead) (m : AdmitMsg) (s : State) : State :=
  if m.requester = ownInst s then
    match waiter s m.tag with
    | some r => setReply s r (some (.answered m.result))
    | none => s
  else relay s 8 m.requester m.tag.toNat h (respBody m) (otherLinks s l)
def admitResp (l : StackLink) (h : StackHead) (m : AdmitMsg) (s : State) : State := stkRow l s (admitRespCore l h m)
def execAdmitResp (l : StackLink) (h : StackHead) (m : AdmitMsg) (s : State) : Host.Outcome State Fault Refusal := event (admitResp l h m s)
def dropPending (s : State) (requester : Nat) (tag : BitVec 16) : State :=
  { s with stk := { s.stk with pending := s.stk.pending.filter (fun e => !(e.requester == requester && e.tag == tag)) } }
def releaseCore (_ : StackLink) (h : StackHead) (m : AdmitMsg) (s : State) : State :=
  if s.stk.st = .distaff then dropPending s m.requester m.tag
  else relay s 9 m.requester m.tag.toNat h (releaseBody m) (toDistaff s)
def release (l : StackLink) (h : StackHead) (m : AdmitMsg) (s : State) : State := stkRow l s (releaseCore l h m)
def execRelease (l : StackLink) (h : StackHead) (m : AdmitMsg) (s : State) : Host.Outcome State Fault Refusal := event (release l h m s)
/-- `ADMIT_PENDING_TIMEOUT`: 10 ms have passed. -/
def admitPendingTimeout (tag : BitVec 16) (requester : Nat) (s : State) : State :=
  if inStack s && s.stk.pending.any (fun e => e.requester == requester && e.tag == tag && decide (e.at_ + 10000000 ≤ s.tm.now)) then dropPending s requester tag else s
def execAdmitPendingTimeout (tag : BitVec 16) (requester : Nat) (s : State) : Host.Outcome State Fault Refusal := event (admitPendingTimeout tag requester s)
/-- `STACK_RESPONSE_TIMEOUT`: 1 ms without the awaited frame (R431, R437). -/
def stackResponseTimeout (r : Nat) (s : State) : State :=
  match tget none s.stk.reply r with
  | some (.waiting t _) => if t + 1000000 ≤ s.tm.now then setReply s r (some .timeout) else s
  | _ => s
def execStackResponseTimeout (r : Nat) (s : State) : Host.Outcome State Fault Refusal := event (stackResponseTimeout r s)

/-! ### `STACK.*` (R330, R430 to R432, R440, R485) -/
/-- A port of the mask breaks R424. -/
def stackPortsBad (s : State) (mask : Nat) : Bool :=
  (List.range 32).any (fun p => mask.testBit p &&
    (match pdef s p with
     | some d => !isEnabled s p || decide (rateOf d d.width < 100000) || (pset s p).line.lpiEn || (pset s p).shed.mode != 0
     | none => true))
def eligible (s : State) : Bool := tally s 9 == 1
/-- The instance's stack state as it enters a stack. -/
def freshStack (s : State) (st : StkState) (distaff ports : Nat) : State :=
  let k : Stack := { st := st, distaff := distaff, portMask := BitVec.ofNat 32 ports, reach := setBitAt 0 (ownInst s) true, fresh := tset 0 [] (ownInst s) s.tm.now
                     hbAt := s.tm.now, nextTag := s.stk.nextTag, reserved := s.stk.reserved, stepOfs := s.stk.stepOfs, stepTime := s.stk.stepTime }
  let s := { s with stk := k }
  (stkLinks s).foldl (fun s l => setLink s l { linkOf s l with heard := some s.tm.now }) s
/-- Out of every stack (R432). -/
def leaveStack (s : State) : State :=
  dropSteps { s with stk := { nextTag := s.stk.nextTag, reserved := s.stk.reserved, stepOfs := s.stk.stepOfs, stepTime := s.stk.stepTime, sent := s.stk.sent } }
def useStackForm (_ : Cmd) : List (Nat × Nat × Nat) := [(8, 0, 5), (12, 0, 32), (16, 0, 32)]
def bodyStackForm (j : JEntry) (s : State) : StepRes :=
  let c := j.cmd
  let me := ownInst s
  guarded [(inStarter s || s.stk.st != .none, sBUSY),
    (fld c 8 0 5 != me || !eligible s || !(fld c 12 0 32).testBit me || stackPortsBad s (fld c 16 0 32), sBAD_OPERAND)] s
    (let s := freshStack s .distaff me (fld c 16 0 32)
     stop sDONE { s with stk := { s.stk with gen := 1, hops := 0, members := BitVec.ofNat 32 (fld c 12 0 32) } })
def execStackForm (c : Cmd) (s : State) : Host.Outcome State Fault Refusal := instr 0xA0 useStackForm bodyStackForm c s
def useStackJoin (_ : Cmd) : List (Nat × Nat × Nat) := [(8, 0, 8), (16, 0, 32)]
/-- A `STACK.JOIN` that fails (R431). -/
def joinFails (j : JEntry) (s : State) (st : BitVec 8) (result : Nat) : StepRes := .done st (BitVec.ofNat 64 result) (setReply (leaveStack s) j.ring none)
def bodyStackJoin (j : JEntry) (s : State) : StepRes :=
  let c := j.cmd
  let late := tget none s.stk.reply j.ring == some .timeout
  let wait := fun (s : State) => setReply s j.ring (some (.waiting s.tm.now 0))
  if j.stage = 0 then
    guarded [(inStarter s || s.stk.st != .none, sBUSY), (decide (32 ≤ fld c 8 0 8), sNO_OBJECT), (stackPortsBad s (fld c 16 0 32), sBAD_OPERAND)] s
      (let s := freshStack (busIdle s) .joining (fld c 8 0 8) (fld c 16 0 32)
       let s := sendAll s 5 (ownHead s) [] (stkLinks s)
       .wait (wait s) (.stackReply j.ring) 1 1 [])
  else if s.stk.st ≠ .joining then joinFails j s sSTACK_SPLIT 0
  else if j.stage = 1 then
    if s.stk.joinHeard then .wait (wait s) (.stackReply j.ring) 2 2 [] else joinFails j s sSTACK_SPLIT 0
  else if j.stage = 2 then
    match s.stk.joinAck with
    | some 0 => .wait (setReply { s with stk := { s.stk with gen := s.stk.joinGen } } j.ring none) (.stackReply j.ring) 3 3 []
    | some r => joinFails j s sBAD_OPERAND r
    | none => if late then joinFails j s sSTACK_SPLIT 0 else .wait s (.stackReply j.ring) 2 2 []
  else stop sDONE { s with stk := { s.stk with st := .member, quality := some .locked } }
def execStackJoin (c : Cmd) (s : State) : Host.Outcome State Fault Refusal := instr 0xA1 useStackJoin bodyStackJoin c s
/-- Highest generation that a reachable instance holds. -/
def topGen (s : State) : Nat :=
  (List.range 32).foldl (fun a i => if reachable s i && i != ownInst s then max a (tget 0 s.stk.genSeen i) else a) s.stk.gen
def bodyStackElect (_ : JEntry) (s : State) : StepRes :=
  guarded [(inStarter s || s.stk.st != .orphan, sBUSY), (!eligible s, sBAD_OPERAND)] s
    (let g := (topGen s + 1) % 2 ^ 32
     let s := { s with stk := { s.stk with st := .distaff, distaff := ownInst s, gen := g, hops := 0, upstream := none, quality := none }
                       tu := if isOn s dTU then { s.tu with stepped := true, holdover := false } else s.tu }
     .done sDONE (BitVec.ofNat 64 g) (raise s 62 2))
def execStackElect (c : Cmd) (s : State) : Host.Outcome State Fault Refusal := instr 0xA2 useNone bodyStackElect c s
def bodyStackLeave (_ : JEntry) (s : State) : StepRes :=
  guarded [(s.stk.st == .none, sDONE_NOTE),
    (s.stk.st == .distaff && (List.range 32).any (fun i => i != ownInst s && reachable s i), sBUSY), (!(stackContracts s (fun _ => true)).isEmpty, sBUSY)] s
    (let s := busIdle s
     stop sDONE (leaveStack (sendAll s 10 (ownHead s) [] (stkLinks s))))
def execStackLeave (c : Cmd) (s : State) : Host.Outcome State Fault Refusal := instr 0xA3 useNone bodyStackLeave c s

/-! ### Plied ports (R305, R444 to R447) -/
def plyJoin (c : Cmd) : Bool := fbit c 8 0
def usePortPly (c : Cmd) : List (Nat × Nat × Nat) := [(8, 0, 1), (9, 0, 5)] ++ if plyJoin c then [(16, 0, 48)] else []
def isPlied (s : State) : Bool := match pdef s 24 with | some d => d.plied | none => false
/-- Lanes LN24 to LN31 carry a defined port. -/
def upperLanes (s : State) : Bool := (definedPorts s).any (fun q => match pdef s q with | some d => lanesMeet 24 8 q d.width | none => false)
/-- Wrong instance or partner, or a ceiling of R444. -/
def plyBad (s : State) (c : Cmd) : Bool :=
  ownInst s % 2 == 1 || fld c 9 0 5 != ownInst s + 1 ||
  (plyJoin c && (c.partnerLow || tally s 6 != 0 || tally s 7 != 0 || decide ((if tally s 8 = 0 then 32 else tally s 8) < (definedPorts s).length + 1)))
def bodyPortPly (j : JEntry) (s : State) : StepRes :=
  let c := j.cmd
  let d : PortDef := { mode := .l224, width := 8, fec := .rs544, mac := fmac c 16, plied := true }
  if j.stage = 1 then .wait s .ready 2 2 []
  else if j.stage = 2 then stop sDONE (freshPort s 24 (if plyJoin c then some d else none))
  else if plyJoin c then
    guarded [(inStarter s, sBUSY), (plyBad s c, sBAD_OPERAND), (upperLanes s || c.partnerLanes, sBUSY), (!reachable s (ownInst s + 1), sSTACK_SPLIT)] s (.wait s .ready 1 1 [])
  else
    guarded [(inStarter s, sBUSY), (plyBad s c, sBAD_OPERAND), (!reachable s (ownInst s + 1), sSTACK_SPLIT), (!isPlied s, sDONE_NOTE), (portNamed s 24, sBUSY)] s
      (.wait s .ready 1 1 [])
/-- The command with its JOIN operand cleared. -/
def withoutJoin (c : Cmd) : Cmd := { c with ops := setBitAt c.ops 0 false }
def execPortPlyJoin (c : Cmd) (s : State) : Host.Outcome State Fault Refusal := instr 0x16 usePortPly bodyPortPly c s
def execPortPlySeparate (c : Cmd) (s : State) : Host.Outcome State Fault Refusal := instr 0x16 usePortPly bodyPortPly (withoutJoin c) s
/-- `PARTNER_ABSENT`: the plied port goes down (R447). -/
def partnerAbsent (s : State) : State := if isPlied s then portGoesDown s 24 kLATE_LINK_DOWN else s
def execPartnerAbsent (s : State) : Host.Outcome State Fault Refusal := event (partnerAbsent s)

/-! ### Stack frames among received frames (R425, R426, R427) -/
def wireHead (o : Octets) : StackHead := { sender := oct o 19 % 32, state := oct o 19 / 32, distaff := oct o 20 % 32, hops := oct o 21, gen := octBe o 22 4 }
def wireT96 (o : Octets) (i : Nat) : Int := (t96n { sec := octBe o i 6, ns := octBe o (i + 6) 4, frac := octBe o (i + 10) 2 } : Nat)
def wireQual (n : Nat) : Quality := if n = 0 then .locked else if n = 1 then .holdover else if n = 2 then .unset else .starter
/-- A received stack frame acts as its row does; a type that R426 does not give does nothing. -/
def stackFrame (l : StackLink) (o : Octets) (rx : Int) (s : State) : State :=
  let h := wireHead o
  let w := fun i n => BitVec.ofNat (8 * n) (octBe o i n)
  match oct o 18 with
  | 1 => heartbeatCore l h (BitVec.ofNat 256 (ofLe (part o 26 32))) s
  | 2 => timeCore l h (wireT96 o 26) rx s
  | 3 => delayReqCore l (w 26 2) rx s
  | 4 => delayRespCore l (w 26 2) (wireT96 o 28) (wireT96 o 40) rx s
  | 5 => joinReqCore l h s
  | 6 => joinAckCore l h (oct o 26) (oct o 27) (w 28 4) s
  | 7 => admitReqCore l h { requester := oct o 26, contract := w 27 2, mask := w 29 4, tag := w 33 2 } s
  | 8 => admitRespCore l h { requester := oct o 26, contract := w 27 2, tag := w 29 2, result := oct o 31 } s
  | 9 => releaseCore l h { requester := oct o 26, contract := w 27 2, tag := w 29 2 } s
  | 10 => leaveCore l h s
  | _ => s
/-- The stack port's handler of sub-format 0x02 (R427); none where R56 acts. -/
def stackHandler (p : Nat) (o : Octets) (t : T96) (s : State) : Option State :=
  if inStack s && s.stk.portMask.toNat.testBit p && octBe o 0 6 == 0x0180C200000E && oct o 17 == 1 then
    some (stackFrame (.port p) o (t96n t : Nat) (busIdle s))
  else none
/-- `FRAME_RECEIVED` on a port that is up. What comes with an unknown delimiter, or fails its reassembly, gives no frame (R62). A listening
port only compares the frame with its filter (R381). In loopback what comes is what the port has sent (R332). -/
def frameReceived (p : Nat) (o : Octets) (x : LaneStamp) (descs : List FabReply) (asm : Assembly) (s : State) : State :=
  if rxOn s p = false then (if listenMatch s p o then wakeEvent s 2 p else s)
  else if echoRx s p (.frame o asm) = false then s
  else
  let s := echoTaken s p
  if asm.badSmd then cntPort s p 22 1
  else
    let s := if asm.fragments = 0 then s else cntPort s p 23 asm.fragments
    if asm.failed then cntPort s p 21 1
    else macReceive stackHandler p o x descs (if asm.fragments = 0 then s else cntPort s p 20 1)
def execFrameReceived (p : Nat) (o : Octets) (x : LaneStamp) (descs : List FabReply) (asm : Assembly) (s : State) : Host.Outcome State Fault Refusal :=
  event (frameReceived p o x descs asm s)

end Sys2Proof.Machine
end

