-- ==== Sys2Proof/Machine/ContractOps.lean ====
section
/-! DEFINITION. `CONTRACT.*` (R222 to R225, R238, R246 to R250, R293, R313, R314, R437, R506). -/
namespace Sys2Proof.Machine

/-- The operand bits of R313; some are reserved for one direction. -/
def useContract (c : Cmd) : List (Nat × Nat × Nat) :=
  [(8, 0, 1), (8, 3, 5), (9, 0, 5), (10, 0, 14), (12, 0, 22), (15, 0, 24), (18, 0, 27), (26, 0, 14), (28, 0, 32)] ++
  (if fbit c 8 0 then [(22, 0, 14)] else [(8, 1, 2), (24, 0, 12)])
def imageOf (c : Cmd) : CtImage :=
  { rx := fbit c 8 0, release := fbit c 8 1, demoteEn := fbit c 8 2, streamEn := fbit c 8 3, cls := fld c 8 4 4, port := fld c 9 0 5, maxFrame := fld c 10 0 14
    rate := fld c 12 0 22, burst := fld c 15 0 24, bound := fld c 18 0 27, rxBufLen := fld c 22 0 14, demoteSkein := fld c 24 0 12, stream := fld c 26 0 14
    stackMask := BitVec.ofNat 32 (fld c 28 0 32) }
/-- The cases of R223. -/
def imageBad (s : State) (i : CtImage) : Bool :=
  let K := skein s i.demoteSkein
  decide (i.cls < 8) || decide (i.maxFrame < 64) || i.rate == 0 || decide (3200000 < i.rate) || decide (i.bound < 60) || decide (125000000 < i.bound) ||
  (i.rx && decide (i.rxBufLen < 64)) || (pdef s i.port).isNone || decide (i.burst < i.maxFrame + 20) || decide ((pset s i.port).line.m < i.maxFrame) ||
  (i.demoteEn && !(K.valid && K.port == i.port && decide (K.cls < 8))) ||
  (i.streamEn && !((strm s i.stream).genEn || (strm s i.stream).recEn))
/-- The transitional values of R248. -/
def transitional (o n : CtImage) : CtImage :=
  { n with rate := max o.rate n.rate, burst := max o.burst n.burst, maxFrame := max o.maxFrame n.maxFrame, bound := min o.bound n.bound
           rxBufLen := min o.rxBufLen n.rxBufLen, release := o.release || n.release }

/-! ### Approval (R246, R437) -/
/-- The instance whose rings wait can reach the Distaff over its upstream. -/
def canAsk (s : State) : Bool := (s.stk.st == .member || s.stk.st == .merging) && s.stk.upstream.isSome
def admMsg (s : State) (n : Nat) (i : CtImage) (tag : BitVec 16) : AdmitMsg := { requester := ownInst s, contract := BitVec.ofNat 16 n, mask := i.stackMask, tag := tag }
/-- Send ADMIT_REQ under a new tag, and wait. -/
def askDistaff (s : State) (r n : Nat) (i : CtImage) : State :=
  let tag := s.stk.nextTag + 1
  let s := busIdle { s with stk := { s.stk with nextTag := tag } }
  setReply (sendAll s 7 (ownHead s) (admitBody (admMsg s n i tag)) (toDistaff s)) r (some (.waiting s.tm.now tag))
/-- The instruction completes: RELEASE goes to the Distaff. -/
def tellRelease (s : State) (r n : Nat) (i : CtImage) (tag : BitVec 16) : State :=
  let s := busIdle (setReply s r none)
  sendAll s 9 (ownHead s) (releaseBody (admMsg s n i tag)) (toDistaff s)
def stackRefused (s : State) (r : AdmResult) : StepRes :=
  let r := { r with reason := 7, failValid := true, failContract := r.candidate }
  .done sREFUSED_ADMISSION (admResult r) (keepAdm s r sREFUSED_ADMISSION)
def stackSplit (s : State) (r : AdmResult) : StepRes := stop sSTACK_SPLIT (keepAdm s r sSTACK_SPLIT)
/-- A test with candidate (n, i): its own parts, then the Distaff's approval; `ok` is what the state becomes. The tag in use stands in the
journal entry. -/
def ctTest (j : JEntry) (n : Nat) (i : CtImage) (s : State) (ok : State → State) : StepRes :=
  tested j s s (some (n, i)) (fun r s =>
    if r.reason ≠ 0 ∨ i.stackMask = 0 then verdict ok r s
    else if s.stk.st = .distaff then (if approval s i.stackMask = 0 then verdict ok r s else stackRefused s r)
    else if canAsk s then .wait (askDistaff s j.ring n i) (.stackReply j.ring) 1 0 [r.margin, r.dFab, (s.stk.nextTag + 1).toNat]
    else stackSplit s r)
/-- Last step: the Distaff has answered or not. -/
def ctAnswered (j : JEntry) (n : Nat) (i : CtImage) (s : State) (ok : State → State) : StepRes :=
  let told := tget none s.stk.reply j.ring
  let r : AdmResult := { candValid := true, candidate := n, psCells := if i.rx then 0 else sat32 (psCells i), rxReserve := if i.rx then sat32 (rxReserve i) else 0
                         margin := (j.scratch[0]?).getD 0, dFab := (j.scratch[1]?).getD 0 }
  let s := tellRelease s j.ring n i (BitVec.ofNat 16 ((j.scratch[2]?).getD 0))
  match told with
  | some (.answered 0) => .done sDONE (admResult r) (keepAdm (ok s) r sDONE)
  | some (.answered _) => stackRefused s r
  | _ => stackSplit s r
/-- A commit of image `i` as contract `n` under the values `t` that its cells are drawn for. A named instance that this
instance cannot reach suspends it (R438). -/
def ctCommit (n : Nat) (t : CtImage) (C : Contract) (s : State) : State :=
  let (a, b) := drawCells s n t
  let s := setCt s n { C with draw0 := a, draw1 := b }
  let s := ((List.range 32).filter (fun i => t.stackMask.toNat.testBit i && !reachable s i)).foldl (fun s i => suspendCt i s n) s
  ctSettle s n

/-! ### `CONTRACT.ADMIT` (R223, R247) -/
def doAdmit (n : Nat) (i : CtImage) (s : State) : State := ctCommit n i { st := .admitted, img := i } s
def bodyContractAdmit (j : JEntry) (s : State) : StepRes :=
  let n := objNum j.cmd
  let i := imageOf j.cmd
  if j.stage = 1 then ctAnswered j n i s (doAdmit n i)
  else if j.stage = 8 then ctTest j n i s (doAdmit n i)
  else guarded [(inStarter s, sBUSY), (imageBad s i, sBAD_OPERAND), ((contr s n).st != .free, sBUSY)] s (ctTest j n i s (doAdmit n i))
def execContractAdmit (c : Cmd) (s : State) : Host.Outcome State Fault Refusal := instr 0x30 useContract bodyContractAdmit c s

/-! ### `CONTRACT.WITHDRAW` (R249) -/
def bodyContractWithdraw (j : JEntry) (s : State) : StepRes :=
  let n := objNum j.cmd
  guarded [((contr s n).st != .admitted, sNO_OBJECT)] s (stop sDONE (withdrawCt s n))
def execContractWithdraw (c : Cmd) (s : State) : Host.Outcome State Fault Refusal := instr 0x31 useNone bodyContractWithdraw c s

/-! ### `CONTRACT.AMEND` (R248) -/
def amendBad (C : Contract) (i : CtImage) : Bool := C.img.rx != i.rx || C.img.port != i.port || C.img.cls != i.cls || C.img.stackMask != i.stackMask
def transOf (C : Contract) (i : CtImage) : CtImage := transitional (C.trans.getD C.img) i
def doAmend (n : Nat) (i : CtImage) (s : State) : State :=
  let C := contr s n
  ctCommit n (transOf C i) { C with img := i, trans := some (transOf C i), transFid := if i.rx then s.rx.nextId else s.tx.nextId, tok := min C.tok (i.burst * 8000) } s
/-- Conditions and test of an amendment; `ok` is what a pass does. -/
def amendTest (j : JEntry) (s : State) (ok : Nat → CtImage → State → State) : StepRes :=
  let n := objNum j.cmd
  let i := imageOf j.cmd
  let C := contr s n
  if C.st ≠ .admitted then
    stop sNO_OBJECT (if j.stage = 1 then tellRelease s j.ring n i (BitVec.ofNat 16 ((j.scratch[2]?).getD 0))
      else if j.stage = 8 then { s with sq := { s.sq with admRun := none } } else s)
  else if j.stage = 1 then ctAnswered j n (transOf C i) s (ok n i)
  else if j.stage = 8 then ctTest j n (transOf C i) s (ok n i)
  else guarded [(imageBad s i || amendBad C i, sBAD_OPERAND)] s (if i = C.img then stop sDONE s else ctTest j n (transOf C i) s (ok n i))
def bodyContractAmend (j : JEntry) (s : State) : StepRes :=
  if j.stage = 0 ∧ inStarter s then stop sBUSY s
  else if objKind j.cmd = 0 then bodyFabRate j s
  else amendTest j s doAmend
def useContractAmend (c : Cmd) : List (Nat × Nat × Nat) := if objKind c = 0 then [(8, 0, 22)] else useContract c
def execContractAmend (c : Cmd) (s : State) : Host.Outcome State Fault Refusal := instr 0x33 useContractAmend bodyContractAmend c s
def execFabRateSet (c : Cmd) (s : State) : Host.Outcome State Fault Refusal := instr 0x33 useContractAmend bodyContractAmend (asObj c 0 0 1) s

/-! ### `CONTRACT.QUERY` (R250) -/
def bodyContractQuery (j : JEntry) (s : State) : StepRes :=
  let n := objNum j.cmd
  let i := imageOf j.cmd
  if j.stage = 0 ∧ inStarter s then stop sBUSY s
  else if j.cmd.sub = 1 then amendTest j s (fun _ _ s => s)
  else if j.stage = 1 then ctAnswered j n i s (fun s => s)
  else if j.stage = 8 then ctTest j n i s (fun s => s)
  else guarded [(imageBad s i, sBAD_OPERAND), ((contr s n).st != .free, sBUSY)] s (ctTest j n i s (fun s => s))
def execContractQuery (c : Cmd) (s : State) : Host.Outcome State Fault Refusal := instr 0x32 useContract bodyContractQuery c s

end Sys2Proof.Machine
end

