-- ==== Sys2Proof/Machine/Images.lean ====
section
/-! DEFINITION. `READ` (R297, R298) and the content images of objects; the images of a bank that R376 checks. -/
namespace Sys2Proof.Machine

/-- An image of `n` bytes with fields (operand byte, low bit, value): operand byte 8 is image byte 0 (R297). -/
def imgN (n : Nat) (l : List (Nat × Nat × Nat)) : Octets := le n (l.foldl (fun a e => Nat.lor a (e.2.2 <<< (8 * (e.1 - 8) + e.2.1))) 0)
def img24 (l : List (Nat × Nat × Nat)) : Octets := imgN 24 l

/-! ### Ports -/
def fcNum : FcMode → Nat
  | .none => 0 | .pause => 1 | .pfc => 2
def preNum : Preempt → Nat
  | .off => 0 | .verify => 1 | .noVerify => 2
def lineImage (L : LineSet) : Octets :=
  img24 [(8, 0, L.m), (10, 0, L.linkHold), (12, 0, b2n L.fcsPass), (12, 1, b2n L.fcsKeep), (12, 2, fcNum L.fc), (12, 4, preNum L.preempt), (12, 6, b2n L.lpiEn), (12, 7, b2n L.xo),
    (13, 0, L.verifyMs), (14, 0, L.lpiIdle), (16, 0, L.pbDepth), (20, 0, L.pbFill), (22, 0, b2n L.histRx), (24, 0, L.fecDegraded)]
def setImage (S : PortSet) (sub : Nat) : Octets :=
  match sub with
  | 0 => lineImage S.line
  | 1 => img24 [(8, 0, S.pfcMap.toNat), (14, 0, S.genMask.toNat), (16, 0, S.xoffDelay)]
  | 2 => img24 [(8, 0, S.parse), (9, 0, S.defClass), (10, 0, S.pcpMap.toNat)]
  | 3 => img24 []
  | n => let T := tget {} S.oneStep (n - 4)
         img24 [(8, 0, b2n T.enable), (8, 1, b2n T.residence), (9, 0, T.matchOffset), (10, 0, T.matchValue.toNat), (12, 0, T.ptpOffset), (13, 0, T.udpCsum), (14, 0, T.typeMask.toNat)]
def tagImage (s : State) (p sub : Nat) : Octets :=
  let S := pset s p
  if sub < 16 then
    let T := tget {} S.tag sub
    img24 [(8, 0, tpidVal s p T.tpid0), (10, 0, T.tci0.toNat), (12, 0, tpidVal s p T.tpid1), (14, 0, T.tci1.toNat), (16, 0, tpidVal s p T.tpid2), (18, 0, T.tci2.toNat),
      (20, 0, T.count), (20, 2, b2n T.pcpFromClass), (20, 3, T.redKind), (22, 0, T.stream)]
  else if sub = 16 then img24 [(8, 0, b2n S.rx.rm8100), (8, 1, b2n S.rx.rm88a8), (8, 2, b2n S.rx.rmCustom), (9, 0, S.rx.count)]
  else if sub = 17 then img24 [(8, 0, S.rx.rxKind), (8, 2, b2n S.rx.dupMark), (8, 3, b2n S.rx.remove), (9, 0, S.rx.lan), (9, 4, S.rx.path)]
  else img24 [(8, 0, S.rx.custom.toNat)]
def shedNum : ShedState → Nat
  | .full => 0 | .proposed => 1 | .agreed => 2 | .switching => 3 | .shed => 4
def portStatus (s : State) (p : Nat) : Octets :=
  let L := line s p
  imgN 16 [(8, 0, b2n (pdef s p).isSome), (8, 1, b2n (isEnabled s p)), (8, 2, b2n L.up), (8, 3, b2n (preemptActive s p)), (8, 4, b2n L.lpi),
    (9, 0, widthNow s p), (10, 0, shedNum L.shed.st), (12, 0, (budgetAt L (pset s p).line s.tm.now).1)]
/-- The images of a port (R298): the settings of `PORT.TAG` and `TABLE.LEARN` that are written there, and the rest of one that is defined. -/
def portImage (s : State) (p sub : Nat) : Octets :=
  let S := pset s p
  if 0x10 ≤ sub ∧ sub < 0x23 then tagImage s p (sub - 0x10)
  else if sub = 0x31 then img24 [(8, 0, b2n S.learn.en), (8, 1, b2n S.learn.perVlan), (8, 2, b2n S.learn.flood), (10, 0, S.learn.fid), (12, 0, S.learn.floodGroup)]
  else match pdef s p with
  | none => List.replicate (if sub = 0x40 then 16 else 24) 0
  | some d =>
    if sub < 8 then setImage S sub
    else if sub = 0x30 then img24 [(8, 0, S.shed.mode), (9, 0, S.shed.width), (10, 0, S.shed.hold), (12, 0, S.shed.low), (13, 0, S.shed.grow)]
    else if sub = 0x32 then img24 [(8, 0, modeNum d.mode), (9, 0, d.width), (10, 0, fecNum d.fec), (16, 0, macLe d.mac)]
    else portStatus s p

/-! ### Bobbins, skeins, contracts -/
def cstateNum : CState → Nat
  | .free => 0 | .bound => 1 | .withdrawn => 2
/-- STATE as software reads it: 3 for every bobbin of a FAILED bank (R389). -/
def bobState (s : State) (b : Nat) : Nat := if isFailed s (dBC (b / 32768)) then 3 else stateNum (bobn s b).st
def bobbinImage (s : State) (b sub : Nat) : Octets :=
  let B := bobn s b
  if sub = 0 then
    imgN 24 [(8, 6, B.base.toNat), (16, 0, kindNum B.kind), (16, 2, b2n B.notify), (17, 0, B.sizeLog2), (18, 0, B.window), (19, 0, B.tol), (20, 0, B.completion), (24, 0, B.skein)]
  else imgN 8 [(8, 0, B.contract), (10, 0, cstateNum B.cstate), (11, 0, bobState s b), (12, 0, B.crumbs.toNat)]
def skeinImage (s : State) (k : Nat) : Octets :=
  let K := skein s k
  img24 [(8, 0, b2n K.valid), (8, 1, b2n K.enable), (9, 0, K.port), (10, 0, K.cls), (12, 0, K.quantum), (28, 0, K.deficit)]
def contractImage (i : CtImage) : Octets :=
  img24 [(8, 0, b2n i.rx), (8, 1, b2n i.release), (8, 2, b2n i.demoteEn), (8, 3, b2n i.streamEn), (8, 4, i.cls), (9, 0, i.port), (10, 0, i.maxFrame), (12, 0, i.rate), (15, 0, i.burst),
    (18, 0, i.bound), (22, 0, i.rxBufLen), (24, 0, i.demoteSkein), (26, 0, i.stream), (28, 0, i.stackMask.toNat)]
def ctNum : CtState → Nat
  | .free => 0 | .admitted => 1 | .withdrawing => 2
def ctImages (s : State) (n sub : Nat) : Octets :=
  let C := contr s n
  if sub = 0 then (if C.st = .free then List.replicate 24 0 else contractImage C.img)
  else if sub = 1 then
    le 4 C.accepted.toNat ++ le 4 C.refused.toNat ++ le 4 C.demoted.toNat ++ le 4 C.late.toNat ++ le 4 C.rxNonconf.toNat ++
      le 4 (ofInt 32 (clamp (-(2 ^ 31)) (2 ^ 31 - 1) C.worst)).toNat
  else if C.st = .free then List.replicate 24 0
  else img24 [(8, 0, ctNum C.st), (12, 0, C.bobbin.getD 0), (12, 31, b2n C.bobbin.isSome), (16, 0, if C.img.rx then 0 else sat32 (C.draw0 + C.draw1)),
    (20, 0, if C.img.rx then sat32 (rxReserve (C.trans.getD C.img)) else 0), (24, 0, C.tok)]

/-! ### Streams, tables, power, checks, interrupts, time -/
def streamImage (s : State) (n sub : Nat) : Octets :=
  let e := strm s n
  if sub = 0 then
    img24 [(8, 0, b2n e.genEn), (8, 1, b2n e.genDesc), (8, 2, b2n e.recEn), (8, 3, b2n e.algMatch), (8, 4, e.idKind), (9, 0, e.histLen), (10, 0, e.resetMs), (12, 0, e.genSeq.toNat),
      (14, 0, e.idVid), (16, 0, macLe e.idAddr)]
  else (List.range 7).flatMap (fun i => le 8 (tget 0 s.ctr.stream (7 * n + i)).toNat)
def hashImage (s : State) : Octets :=
  let t := s.stn
  le 4 t.s1 ++ le 4 t.s2 ++ le 4 t.s1n ++ le 4 t.s2n ++ le 1 (b2n t.tg) ++ le 1 t.phase ++ le 2 0 ++ le 4 t.ptr ++ le 8 0
def domNum (D : Domain) : Nat := match D.st with | .off => 0 | .waking => 1 | .on => 2 | .retained => 3 | .failed => 4
def domImage (s : State) (d : Nat) : Octets :=
  if d = 63 then le 8 2 else le 1 (domNum (dom s d)) ++ le 1 (b2n (isOn s d && (dom s d).onFio)) ++ le 2 (votes s d) ++ le 4 0
def checkImage (s : State) (n sub : Nat) : Octets :=
  let C := chan s n
  match sub with
  | 0 => img24 [(8, 0, C.poly.toNat), (16, 0, C.init.toNat), (24, 0, C.width), (25, 0, b2n C.refin), (25, 1, b2n C.refout)]
  | 1 => img24 [(8, 0, C.xorout.toNat), (16, 0, C.expected.toNat), (24, 0, b2n C.compare)]
  | 2 => img24 [(8, 0, C.addr.toNat), (16, 0, C.window), (18, 0, C.count)]
  | _ => le 8 C.result.toNat ++ le 1 C.outcome ++ le 1 (b2n C.fabricErr) ++ le 2 0 ++ le 4 C.bytes
/-- The order of R81's table. -/
def compTable : List (LaneMode × Fec) :=
  [(.l224, .rs544), (.l112, .rs544), (.l56, .rs544), (.l25, .rs528), (.l25, .clause74), (.l25, .none), (.l10, .clause74), (.l10, .none)]
def timeImage (s : State) (sub : Nat) : Octets :=
  if sub = 0 then
    le 4 (ofInt 32 s.tu.rate).toNat ++ le 1 (qualCode (nowQ s)) ++ le 3 0 ++ le 10 s.tu.slewLeft ++ le 1 (b2n s.tu.slewNeg) ++ le 1 0 ++ le 4 s.tu.slewMag ++ le 8 0
  else compTable.flatMap (fun e => le 4 0 ++ le 4 (comp e.1 e.2).1 ++ le 4 (comp e.1 e.2).2 ++ le 4 0)
def admImage (r : AdmResult) : Octets :=
  le 1 r.reason ++ le 1 r.status.toNat ++ le 1 (b2n r.candValid + 2 * b2n r.failValid) ++ le 1 0 ++ le 2 r.candidate ++ le 2 r.failContract ++ le 4 r.failT ++ le 4 r.margin ++
    le 4 r.dFab ++ le 4 r.psCells ++ le 4 r.rxReserve ++ le 4 0
def blockImage (s : State) (sub : Nat) : Octets :=
  if sub = 0x10 then (List.range 160).flatMap (fun i => le 8 (tget 0 s.ctr.red i).toNat) else admImage s.sq.adm
/-- The content of R298. -/
def readImage (s : State) (kind n sub : Nat) : Octets :=
  match kind with
  | 0x00 => blockImage s sub
  | 0x01 => portImage s n sub
  | 0x03 => bobbinImage s n sub
  | 0x04 => skeinImage s n
  | 0x05 => ctImages s n sub
  | 0x06 => let G := spreadGroup s n; img24 [(8, 0, G.base), (10, 0, G.size)]
  | 0x07 => streamImage s n sub
  | 0x08 => le 64 (template s (n / 64) (n % 64)).toNat
  | 0x0A => if sub = 0 then hashImage s else (List.range 9).flatMap (fun i => le 8 (tget 0 s.ctr.station i).toNat)
  | 0x0B => domImage s n
  | 0x0C => checkImage s n sub
  | 0x0D => let G := grp s n; imgN 8 [(8, 0, G.prio.toNat), (9, 0, (targetSet n G).toNat), (10, 0, G.holdoff.toNat), (12, 0, b2n G.wake)]
  | _ => timeImage s sub
/-- "First" events that a `READ` of counters arms again (R126, R186, R252). -/
def readArms (s : State) (kind n sub : Nat) : State :=
  if kind = 0x00 ∧ sub = 0x10 then (List.range 32).foldl (fun s p => rearm s tgUnmatched p) s
  else if kind = 0x05 ∧ sub = 1 then rearm (rearm (rearm s tgRefused n) tgDemoted n) tgLate n
  else if kind = 0x07 ∧ sub = 1 then rearm s tgRogue n
  else if kind = 0x0A ∧ sub = 1 then (List.range 8).foldl (fun s i => rearm s tgStn i) s
  else s
def useRead (_ : Cmd) : List (Nat × Nat × Nat) := [(8, 0, 64), (16, 0, 8)]
def bodyRead (j : JEntry) (s : State) : StepRes :=
  let c := j.cmd
  let a := fld c 8 0 64
  let o := if j.stage = 1 then unpacked j.scratch else readImage s (objKind c) (objNum c) c.sub.toNat
  let go := withWrite j a o 1 (packed o) s (fun s => .done sDONE (BitVec.ofNat 64 o.length) (readArms s (objKind c) (objNum c) c.sub.toNat))
  if j.stage = 1 then go else guarded [(a % 8 != 0 || !bufOk s c a (fld c 16 0 8) o.length, sBAD_OPERAND)] s go
def execRead (c : Cmd) (s : State) : Host.Outcome State Fault Refusal := instr 0x04 useRead bodyRead c s

/-! ### Bank images of R376 -/
/-- The 80 bits of R159. -/
def stnBytes (e : StnEntry) : Octets :=
  le 10 (b2n e.valid + b2n e.static * 2 + b2n e.touched * 4 + b2n e.choice * 8 + b2n e.gen * 16 + b2n e.held * 32 + e.stamp * 2 ^ 6 + e.age * 2 ^ 12 + e.dest.toNat * 2 ^ 20 + e.q * 2 ^ 36)
def stImage (s : State) (m : Nat) : Octets := (List.range 32768).flatMap (fun i => stnBytes (stn s (32768 * m + i))) ++ hashImage s
/-- The 16-byte context of R188. -/
def contextBytes (B : Bobbin) : Octets :=
  le 16 (kindNum B.kind + B.sizeLog2 * 2 ^ 2 + B.base.toNat * 2 ^ 6 + B.window * 2 ^ 56 + B.completion * 2 ^ 62 + b2n B.notify * 2 ^ 80 + B.skein * 2 ^ 81 + cstateNum B.cstate * 2 ^ 93
    + B.contract * 2 ^ 95 + B.tol * 2 ^ 111)
/-- Bits of a run of flags, eight to an octet. -/
def flagBytes (n : Nat) (f : Nat → Bool) : Octets := (List.range (n / 8)).map (fun i => BitVec.ofNat 8 ((List.range 8).foldl (fun a k => a + b2n (f (8 * i + k)) * 2 ^ k) 0))
/-- The image of a BC bank: its indices are those of the save area, which HD's save fills (R216, R376). -/
def bcImage (s : State) (b : Nat) : Octets :=
  let at_ := fun i => 32768 * b + i
  (List.range 32768).flatMap (fun i => contextBytes (bobn s (at_ i))) ++
  (List.range 16384).map (fun i => BitVec.ofNat 8 ((bobn s (at_ (2 * i))).crumbs.toNat + (bobn s (at_ (2 * i + 1))).crumbs.toNat * 16)) ++
  flagBytes 32768 (fun i => tget false s.bob.notify (at_ i)) ++ flagBytes 512 (fun i => tget false s.bob.summary (512 * b + i)) ++
  (List.range 32768).flatMap (fun i => let x := tget (0, 0) s.bob.save (at_ i); le 8 (x.1 + x.2 * 2 ^ 32))
/-- The CRC of a bank (R376). -/
def bankCrc (s : State) (d : Nat) : BitVec 32 := BitVec.ofNat 32 (crc32c 0xFFFFFFFF (if d < 32 then stImage s (d - 16) else bcImage s (d - 32)))

end Sys2Proof.Machine
end

