-- ==== Sys2Proof/Machine/PowerOps.lean ====
section
/-! DEFINITION. Power domains, block sleep and wake (14, R465, R466): `POWER.*` (R325) and the events of the handshake, of sleep
and of failure. -/
namespace Sys2Proof.Machine

/-! ### Votes of software (R325, R365) -/
def setVote (s : State) (d r : Nat) (b : Bool) : State := { s with pw := { s.pw with vote := tset 0 s.pw.vote d (setBitAt (tget 0 s.pw.vote d) r b) } }
def bodyPowerVote (j : JEntry) (s : State) : StepRes :=
  let d := objNum j.cmd
  if j.stage = 1 then stop (if isFailed s d then sPOWER_FAILED else sDONE) s
  else guarded [(ringVote s j.ring d, sDONE_NOTE), (d == 63, sBAD_OPERAND), (isFailed s d, sPOWER_FAILED)] s
    (let s := setVote s d j.ring true
     if isOn s d then stop sDONE s else .wait s (.domains [d]) 1 0 [])
def execPowerVote (c : Cmd) (s : State) : Host.Outcome State Fault Refusal := instr 0x70 useNone bodyPowerVote c s
def bodyPowerUnvote (j : JEntry) (s : State) : StepRes :=
  let d := objNum j.cmd
  guarded [(!ringVote s j.ring d, sDONE_NOTE)] s (stop sDONE (setVote s d j.ring false))
def execPowerUnvote (c : Cmd) (s : State) : Host.Outcome State Fault Refusal := instr 0x71 useNone bodyPowerUnvote c s

/-- The conditions of R379 but for the hosts' votes; `r` is the ring whose command completes them, if one does. -/
def sleepIdle (s : State) (r : Option Nat) : Bool :=
  s.pw.sleep == .awake && s.pw.edge == .live && s.pw.startUp == .done && s.port.enabled == 0 && s.sq.journal.isEmpty && s.stk.st == .none &&
  !s.ck.chan.any (fun e => e.2.run.isSome) && s.ck.extra == 0 &&
  (List.range 8).all (fun q => let R := ring s q
    !R.enable || R.wait.isSome || (if r = some q then decide (cmdOcc R ≤ 1) else cmdOcc R == 0 && R.record.isNone))
def hostsAsleep (s : State) : Bool := (List.range 4).all (fun t => (tgt s t).sleepGranted)
def usePowerSleep (_ : Cmd) : List (Nat × Nat × Nat) := [(8, 0, 2), (9, 0, 1)]
/-- The vote of host `t` is cast: granted at once where nothing of the host is pending, else held (R365). -/
def castSleep (s : State) (t : Nat) : State :=
  let T := tgt s t
  if T.sleepGranted then s
  else if (sleepHolders s t).isEmpty then setTgt s t { T with sleepHeld := false, sleepGranted := true } else setTgt s t { T with sleepHeld := true }
def bodyPowerSleep (j : JEntry) (s : State) : StepRes :=
  let t := fld j.cmd 8 0 2
  if fbit j.cmd 9 0 then
    let u := castSleep s t
    .done sDONE (BitVec.ofNat 64 (b2n (!(tgt s t).sleepGranted && hostsAsleep u && sleepIdle u (some j.ring)))) u
  else stop sDONE (setTgt s t { tgt s t with sleepHeld := false, sleepGranted := false })
def execPowerSleep (c : Cmd) (s : State) : Host.Outcome State Fault Refusal := instr 0x72 usePowerSleep bodyPowerSleep c s
def usePowerRetain (_ : Cmd) : List (Nat × Nat × Nat) := [(8, 0, 24), (12, 0, 16)]
/-- `POWER.RETAIN` (R375): a mask written during an entry applies from the next one, whose votes are already settled. -/
def bodyPowerRetain (j : JEntry) (s : State) : StepRes :=
  stop sDONE { s with pw := { s.pw with retainMask := BitVec.ofNat 24 (fld j.cmd 8 0 24), releaseMask := BitVec.ofNat 16 (fld j.cmd 12 0 16) } }
def execPowerRetain (c : Cmd) (s : State) : Host.Outcome State Fault Refusal := instr 0x73 usePowerRetain bodyPowerRetain c s
def useWakesrc (c : Cmd) : List (Nat × Nat × Nat) :=
  if objKind c = 1 then [(8, 0, 64), (16, 0, 64), (24, 0, 8), (25, 0, 1)]
  else if c.sub = 0 then [(8, 0, 32), (12, 0, 32), (16, 0, 16), (18, 0, 1), (20, 0, 32)] else []
/-- `POWER.WAKESRC` (R325, R381, R382). -/
def bodyWakesrc (j : JEntry) (s : State) : StepRes :=
  let c := j.cmd
  let p := objNum c
  if objKind c = 1 then
    let W : WakeFilter := { pattern := BitVec.ofNat 64 (fld c 8 0 64), mask := BitVec.ofNat 64 (fld c 16 0 64), offset := fld c 24 0 8, en := fbit c 25 0 }
    guarded [(decide (248 < W.offset), sBAD_OPERAND)] s (stop sDONE (setPset s p { pset s p with wake := W }))
  else if c.sub = 0 then
    stop sDONE { s with pw := { s.pw with linkMask := BitVec.ofNat 32 (fld c 8 0 32), frameMask := BitVec.ofNat 32 (fld c 12 0 32), evtMask := BitVec.ofNat 16 (fld c 16 0 16)
                                          timerEn := fbit c 18 0, timerMs := BitVec.ofNat 32 (fld c 20 0 32) } }
  else .done sDONE (BitVec.ofNat 64 (s.pw.lastWake.kind + s.pw.lastWake.num * 256)) s
def execPowerWakesrcSet (c : Cmd) (s : State) : Host.Outcome State Fault Refusal := instr 0x74 useWakesrc bodyWakesrc c s
def execPowerWakesrcQuery (c : Cmd) (s : State) : Host.Outcome State Fault Refusal := instr 0x74 useWakesrc bodyWakesrc (asObj c 0 0 1) s
def execWakeFrameFilterSet (c : Cmd) (s : State) : Host.Outcome State Fault Refusal := instr 0x74 useWakesrc bodyWakesrc (asObj c 1 (objNum c) 0) s

/-! ### Clocks (R385 to R387) -/
/-- The normal clock of domain `d` toggles. -/
def clkToggles (k : Clocks) (d : Nat) : Bool :=
  if d < 8 then k.ct else if d < 32 then k.dp else if d < 40 then k.fb else if d < 48 then k.dp
  else if d = dTU then k.tu else if d = dHD then k.fb else if d < 54 then k.ct else k.dp
/-- The time unit's clock changed with its domain `d`: the course of its time has a new mark. -/
def markTu (s : State) (d : Nat) : State := if d = dTU then pushMark s else s
def clockSet (s : State) (b : Bool) (d : Nat) : State := markTu (setDom s d { dom s d with onFio := b, selfSwitch := false }) d
def useClock (_ : Cmd) : List (Nat × Nat × Nat) := [(8, 0, 1)]
/-- `POWER.CLOCK` of one domain, or of every domain that is ON. -/
def bodyPowerClock (tog : Clocks) (j : JEntry) (s : State) : StepRes :=
  let c := j.cmd
  let norm := fbit c 8 0
  let d := objNum c
  let ds := if objKind c = 0 then (List.range 56).filter (isOn s) else [d]
  guarded [(objKind c != 0 && d == 63, sBAD_OPERAND), (ds.any (fun x => !isOn s x), sBUSY),
    (norm && ds.any (fun x => !clkToggles tog x), sBUSY), (!norm && ds.any (fun x => decide (0 < portVotes s x + listenVotes s x)), sBUSY)] s
    (stop sDONE (ds.foldl (clockSet · (!norm)) s))
def execPowerClock (c : Cmd) (tog : Clocks) (s : State) : Host.Outcome State Fault Refusal := instr 0x75 useClock (bodyPowerClock tog) c s
/-- `CLOCK_SWITCH`: the clock toggles, and SQ still runs on its own (R386). -/
def clockSwitch (d : Nat) (s : State) : State :=
  if isOn s d ∧ d < 56 ∧ (dom s d).onFio ∧ (dom s d).selfSwitch ∧ onNormal s dSQ then clockSet s false d else s
def execClockSwitch (d : Nat) (s : State) : Host.Outcome State Fault Refusal := event (clockSwitch d s)

/-! ### Loss of a bank (R184, R217, R377, R389, R390) -/
def isSt (d : Nat) : Bool := decide (16 ≤ d) && decide (d < 32)
def isBc (d : Nat) : Bool := decide (32 ≤ d) && decide (d < 40)
/-- An ST bank is declared lost (R184). -/
def lostSt (s : State) (m : Nat) : State :=
  let s := { s with stn := { s.stn with entry := tclear (32768 * m) 32768 s.stn.entry } }
  exportRec (raise s 37 1) 6 m 0 0 0 0 0
/-- What is left of a bobbin whose bank is lost: its crumbs are gone, and unless it was CLOSED it is STALE, without its indices, CSTATE
and contract (R217). -/
def staleBob (B : Bobbin) : Bobbin :=
  if B.st == .closed then { B with crumbs := 0 }
  else { B with st := .stale, cstate := .free, contract := 0, hostIdx := 0, blockIdx := 0, crumbs := 0, next := 0, lastRelease := none, pushed := [] }
/-- A BC bank is lost: its bobbins are STALE. Frames not yet selected end without a record, the records of those selected will be dropped,
and what was issued no longer moves an index of theirs (R217). -/
def lostBc (s : State) (b : Nat) : State :=
  let here := fun (n : Nat) => n / 32768 == b
  let ours := fun (f : TxFrame) => here f.bobbin && (match f.origin with | .csi _ => false | _ => true)
  let l := (s.bob.tab.map Prod.fst).filter here |>.flatMap (bobClasses s)
  let s := { s with bob := { s.bob with tab := tmap {} (fun n B => if here n then staleBob B else B) s.bob.tab, notify := tclear (32768 * b) 32768 s.bob.notify
                                        summary := tclear (512 * b) 512 s.bob.summary, save := tclear (32768 * b) 32768 s.bob.save }
                    ct := { s.ct with tab := tmap {} (fun _ C => if (match C.bobbin with | some n => here n | none => false) then { C with bobbin := none } else C) s.ct.tab } }
  let s := raise (cntBank s (32768 * b) 7 1) (38 + b) 9
  let gone := s.tx.frames.filter (fun f => ours f && (waiting f || f.stage == .ended))
  let s := gone.foldl (fun s f => frameGone (dropRec (leftUnsent s f) (bobn s f.bobbin).completion false) f.id) s
  let s := { s with tx := { s.tx with frames := s.tx.frames.map (fun f => if ours f then { f with dead := true } else f) } }
  let lost := fun (r : Rec) => match r.src with | some n => here n | none => false
  let s := (s.bob.ready.filter (fun r => lost r && r.fid.isNone)).foldl (fun s r => dropRec s (match r.src with | some n => (bobn s n).completion | none => 0) false) s
  let s := (s.rx.writes.filter (fun w => here w.bobbin)).foldl (fun s w => dropRec s (bobn s w.bobbin).completion false) s
  let cts := s.rx.writes.filterMap (fun w => if here w.bobbin then w.promise.map (·.contract) else none)
  let s := { s with bob := { s.bob with ready := s.bob.ready.filter (fun r => !lost r), issued := s.bob.issued.map (fun e => if lost e.record then { e with record := { e.record with src := none } } else e) }
                    rx := { s.rx with writes := s.rx.writes.filter (fun w => !here w.bobbin) } }
  xoffFollow l (pump (cts.foldl ctSettle s))
/-- A retained bank is declared lost (R377): event, Ledger count, and its own handling. -/
def retentionLost (s : State) (d : Nat) : State :=
  let s := ldAdd (raise s 59 5) (0xD40 + 8 * (d - 16)) 1
  if isSt d then lostSt s (d - 16) else lostBc s (d - 32)

/-! ### Sleep entry (R379, R380, R372, R376) -/
/-- Domains whose count falls to zero while the dependency votes of the set itself do not count. -/
def zeroSet (s : State) : List Nat := (List.range 56).filter (fun d => isOn s d && votes s d == 0)
def growSet (s : State) : State := { s with pw := { s.pw with sleepSet := zeroSet s } }
/-- `SLEEP_ENTRY`: votes are suspended, the sleep set follows, and the Ledger is flushed. -/
def sleepEntry (s : State) : State :=
  if hostsAsleep s && sleepIdle s none then
    let s := growSet (growSet (growSet { s with pw := { s.pw with sleep := .entry, sleepSet := [], retainNow := s.pw.retainMask, releaseNow := s.pw.releaseMask, wakeAt := none } }))
    flushFor s 2
  else s
def execSleepEntry (s : State) : Host.Outcome State Fault Refusal := event (sleepEntry s)
/-- The bank is to be RETAINED (R375). -/
def willRetain (s : State) (d : Nat) : Bool :=
  (isSt d && stHolds s (d - 16) || isBc d && s.bob.tab.any (fun e => e.2.st != .closed && decide (e.1 / 32768 = d - 32))) && s.pw.retainNow.toNat.testBit (d - 16)
/-- Isolate domain `d` for OFF: its state is lost (R367, R372). -/
def isolateOff (s : State) (d : Nat) : State :=
  setDom (clearDomain s d) d { dom s d with st := .off, phase := .isolated, isoAt := s.tm.now, onFio := false, selfSwitch := false, checkDue := false }
/-- The units of the domain have no work in flight, and every fabric write of theirs is acknowledged (R372). -/
def quiet (s : State) (d : Nat) : Bool :=
  if d < 8 then true
  else if d < 12 then (List.range 32).all (fun p => p / 8 != d - 8 || (line s p).tx == .idle) && (tget [] s.rx.csi (d - 8)).isEmpty
  else if d < 16 then (tget [] s.pc.recirc (d - 12)).isEmpty
  else if d < 40 then true
  else if d < 48 then !s.tx.frames.any (fun f => (psDoms f.port f.cells f.cells0).contains d && !waiting f && f.stage != .ended)
  else if d = dSQ then s.sq.journal.isEmpty && (List.range 8).all (fun r => (ring s r).record.isNone && !(ring s r).stopping)
  else if d = dHD then s.bob.issued.all (·.acked) && s.rx.writes.isEmpty && (List.range 8).all (fun r => (ring s r).record.isNone)
  else if d = dLD then s.ld.flush.isNone && s.ld.due.isEmpty
  else if d = dTU then s.tu.pend.isEmpty
  else if d = dCK then !s.ck.chan.any (fun e => e.2.run.isSome)
  else true
/-- `QUIESCE_DONE`, once the domain's units are quiet: at run time the isolation instant follows, at the end of an AO cycle, so that every
vote of the cycle has had its say (R374); in sleep entry the domain waits for the set's saves. -/
def quiesceDone (d : Nat) (s : State) : State :=
  let D := dom s d
  if D.st ≠ .on ∨ D.phase ≠ .quiesce ∨ quiet s d = false then s
  else if inSleepSet s d ∨ (d = dCK ∧ s.pw.sleep = .entry ∧ s.ck.extra.toNat.testBit 62 = true) then
    let s := setDom s d { D with phase := .save, since := s.tm.now }
    let s := if s.pw.sleepSet.contains d then s else { s with pw := { s.pw with sleepSet := s.pw.sleepSet ++ [d] } }
    if s.pw.sleepSet.all (fun x => (dom s x).phase == .save) && s.pw.sleepSet.any (willRetain s) then { s with ck := { s.ck with extra := setBitAt s.ck.extra 62 true } } else s
  else if aoEnd s then isolateOff s d
  else s
def execQuiesceDone (d : Nat) (s : State) : Host.Outcome State Fault Refusal := event (quiesceDone d s)
/-- Save of one bank: its CRC goes to its slot (R376). -/
def saveBank (s : State) (d : Nat) : State :=
  { s with pw := { s.pw with slot := tset 0 s.pw.slot (d - 16) (bankCrc s d), slotValid := setBitAt s.pw.slotValid (d - 16) true } }
/-- The control row that stands in every ST bank that is ON. -/
def hashRow (s : State) : HashRow := { s1 := s.stn.s1, s2 := s.stn.s2, s1n := s.stn.s1n, s2n := s.stn.s2n, tg := s.stn.tg, phase := s.stn.phase, ptr := s.stn.ptr }
def setHashRow (s : State) (h : HashRow) : State :=
  { s with stn := { s.stn with s1 := h.s1, s2 := h.s2, s1n := h.s1n, s2n := h.s2n, tg := h.tg, phase := h.phase, ptr := h.ptr } }
/-- The indices of bank `d`'s bobbins go to its save area (R216, R376). -/
def saveIndices (s : State) (d : Nat) : State :=
  { s with bob := { s.bob with save := (s.bob.tab.filter (fun e => decide (dBC (e.1 / 32768) = d))).foldl (fun t e => tset (0, 0) t e.1 (e.2.hostIdx, e.2.blockIdx)) (tclear (32768 * (d - 32)) 32768 s.bob.save) } }
def retainBank (s : State) (d : Nat) : State :=
  let s := if isSt d then { s with stn := { s.stn with kept := tset {} s.stn.kept (d - 16) (hashRow s) } } else s
  setDom s d { dom s d with st := .retained, phase := .isolated, isoAt := s.tm.now, onFio := false, selfSwitch := false }
/-- `SAVE_AND_CHECK_DONE`: every save has ended, and the set has its one isolation instant (R380). -/
def saveAndCheckDone (s : State) : State :=
  if s.pw.sleep = .entry ∧ s.pw.sleepSet.all (fun d => (dom s d).st == .on && (dom s d).phase == .save) = true ∧ s.ld.flush.isNone ∧ s.ld.due = [] ∧
      (isOn s dCK ∨ s.pw.sleepSet.any (willRetain s) = false) ∧ aoEnd s then
    let set := s.pw.sleepSet
    let keep := set.filter (willRetain s)
    let s := if set.contains dHD then (keep.filter isBc).foldl saveIndices s else s
    let s := keep.foldl saveBank { s with ck := { s.ck with extra := setBitAt s.ck.extra 62 false } }
    let s := keep.foldl retainBank s
    let s := (set.filter (fun d => !keep.contains d)).foldl isolateOff s
    raise { s with pw := { s.pw with sleep := .asleep, isoAt := s.tm.now, indexOpen := s.pw.indexOpen && !(set.contains dHD) } } 59 4
  else s
def execSaveAndCheckDone (s : State) : Host.Outcome State Fault Refusal := event (saveAndCheckDone s)

/-! ### The supply handshake (R373, R465, R466) -/
/-- `REGULATOR_REQUEST_FALL`: 25 AO cycles after the isolation instant. -/
def regulatorRequestFall (d : Nat) (s : State) : State :=
  let D := dom s d
  if D.phase = .isolated ∧ D.isoAt + 1000 ≤ s.tm.now then setDom s d { D with req := false, ret := D.st == .retained, phase := .requestLow, since := s.tm.now } else s
def execRegulatorRequestFall (d : Nat) (s : State) : Host.Outcome State Fault Refusal := event (regulatorRequestFall d s)
/-- Both the regulator-good and the acknowledge have fallen: the 20 µs of R373 begin. -/
def bothFallen (s : State) (D : Domain) : Domain :=
  if !D.pgood && !D.ack && D.phase == .requestLow then { D with phase := .holdoff, offAt := s.tm.now } else D
def pmPgoodFall (d : Nat) (s : State) : State :=
  let D := dom s d
  if D.req = false ∧ D.pgood = true then setDom s d (bothFallen s { D with pgood := false }) else s
def execPmPgoodFall (d : Nat) (s : State) : Host.Outcome State Fault Refusal := event (pmPgoodFall d s)
def pmAckFall (d : Nat) (s : State) : State :=
  let D := dom s d
  if D.req = false ∧ D.ack = true then setDom s d (bothFallen s { D with ack := false }) else s
def execPmAckFall (d : Nat) (s : State) : Host.Outcome State Fault Refusal := event (pmAckFall d s)
def repowerHoldoffEnd (d : Nat) (s : State) : State :=
  let D := dom s d
  if D.phase = .holdoff ∧ D.offAt + 20000 ≤ s.tm.now then setDom s d { D with phase := .none } else s
def execRepowerHoldoffEnd (d : Nat) (s : State) : Host.Outcome State Fault Refusal := event (repowerHoldoffEnd d s)
def pmPgoodRise (d : Nat) (s : State) : State :=
  let D := dom s d
  if D.req = true ∧ D.st = .waking ∧ D.pgood = false then setDom s d { D with pgood := true, goodAt := s.tm.now } else s
def execPmPgoodRise (d : Nat) (s : State) : Host.Outcome State Fault Refusal := event (pmPgoodRise d s)

/-! ### Wake (R368, R377, R378, R384, R386, R464) -/
/-- An enabled port whose lanes wait for its domains starts training (R464). -/
def trainWaiting (s : State) (p : Nat) : State :=
  let L := line s p
  if isEnabled s p && !s.port.downing.toNat.testBit p && L.training == .idle && !L.up && portReady s p &&
      !s.sq.journal.any (fun e => e.opcode == 0x11 && objNum e.cmd == p) then startTraining s p
  else s
/-- The cause interval of a domain's loss ends (R390). -/
def endLatePower (s : State) (d : Nat) : State :=
  { s with pw := { s.pw with latePower := s.pw.latePower.map (fun e => if e.1 = d ∧ e.2.2 = none then (e.1, e.2.1, some s.tm.count) else e) } }
/-- The exit of a reset of kind `k` (0 cold, 1 block, 2 soft): LAST_RESET and the Ledger's count (R414, R499). -/
def resetExit (s : State) (k : Nat) : State := ldAdd { s with pw := { s.pw with lastReset := BitVec.ofNat 2 k } } (0xB00 + 8 * k) 1
/-- Bobbins of bank `b` that were bound to a contract which is gone with SL (R378). -/
def unbind (s : State) (b : Nat) : State :=
  { s with bob := { s.bob with tab := tmap {} (fun n B => if n / 32768 = b ∧ B.cstate = .bound ∧ (contr s B.contract).bobbin ≠ some n then { B with cstate := .withdrawn } else B) s.bob.tab } }
/-- The control row of ST bank `m` as it comes ON: that of a bank that is ON; else its own where it passed its check, that of another RETAINED
bank where it was lost, and the power-up state where it comes from OFF (R179, R184, R371, R377). -/
def rowUp (s : State) (m : Nat) (passed lost : Bool) : State :=
  let own := tget {} s.stn.kept m
  let s := { s with stn := { s.stn with kept := tset {} s.stn.kept m {} } }
  if (List.range 16).any (fun x => x != m && (dom s (dST x)).st == .on) then s
  else if passed then setHashRow s own
  else if lost then
    match (List.range 16).find? (fun x => x != m && bankHeld s (dST x)) with
    | some x => setHashRow s (tget {} s.stn.kept x)
    | none => setHashRow s {}
  else setHashRow s {}
/-- Power-up acts of the domain's own units; `passed` and `lost` tell how a retained bank's check ended. -/
def powerUp (s : State) (d : Nat) (passed lost : Bool) : State :=
  if isSt d then rowUp s (d - 16) passed lost
  else if isBc d then (if passed then unbind s (d - 32) else s)
  else if d = dSL then
    let s := { s with stn := { s.stn with tickAt := s.tm.count, ageDue := s.tm.count * 65536 } }
    ((List.range 8).filter (fun b => isOn s (dBC b))).foldl unbind s
  else if d = dSQ then
    let s := if s.pw.startUp = .bootSet then resetExit s (if s.pw.resetKind = .cold then 0 else 1) else s
    { s with sq := { s.sq with released := s.pw.startUp == .done && !s.sq.heldState } }
  else if d = dLD then
    let s := reconcile { s with ld := { s.ld with looked := true } }
    if s.ld.flush.isSome then s else nextDue s
  else markTu s d
/-- The index window opens once HD is ON and no retained BC bank waits for its check (R377). -/
def openIndex (s : State) : State :=
  if isOn s dHD && !(List.range 8).any (fun b => (dom s (dBC b)).st == .retained || ((dom s (dBC b)).st == .waking && (dom s (dBC b)).checkDue)) then
    { s with pw := { s.pw with indexOpen := true } }
  else s
/-- The end of a sleep (R384), and of channel 62's checks. -/
def wakeProgress (s : State) : State :=
  let s := openIndex s
  let s := if anyRetained s then s else { s with ck := { s.ck with extra := setBitAt s.ck.extra 62 false } }
  if s.pw.sleep = .waking ∧ s.pw.wakeSet.all (fun d => isOn s d || isFailed s d) = true then
    raise { s with pw := { s.pw with sleep := .awake, wakeSet := [] } } 59 0
  else s
/-- Domain `d` reads ON. -/
def becomeOn (s : State) (d : Nat) (toggling : Bool) (passed lost : Bool := false) : State :=
  let sw := onNormal s dSQ
  let s := setDom s d { dom s d with st := .on, phase := .none, onFio := !(sw && toggling), selfSwitch := sw && !toggling, checkDue := false, tries := 0 }
  let s := endLatePower (powerUp s d passed lost) d
  let s := (List.range 32).foldl (fun s p => growHook (growTrain (trainWaiting s p) p) p) s
  wakeProgress s
/-- The boot set is ON: channel 63 checks the ROM (R483). -/
def bootProgress (s : State) : State :=
  if s.pw.startUp = .bootSet ∧ bootSet.all (isOn s) = true then
    { s with pw := { s.pw with startUp := .romCheck }, ck := { s.ck with extra := setBitAt s.ck.extra 63 true } }
  else s
/-- `DOMAIN_ON`: 200 AO cycles after regulator-good. -/
def domainOn (d : Nat) (toggling : Bool) (s : State) : State :=
  let D := dom s d
  if d < 56 ∧ D.st = .waking ∧ D.pgood = true ∧ D.goodAt + 8000 ≤ s.tm.now ∧ D.checkDue = false then bootProgress (becomeOn s d toggling) else s
def execDomainOn (d : Nat) (toggling : Bool) (s : State) : Host.Outcome State Fault Refusal := event (domainOn d toggling s)
/-- `RETENTION_CHECK_DONE` of bank `d`, in the order of R376, with the CRC that channel 62 computed; the bank then takes its normal clock as any
domain that wakes does (R386). -/
def retentionCheckDone (d : Nat) (v : BitVec 32) (toggling : Bool) (s : State) : State :=
  let D := dom s d
  if D.st = .waking ∧ D.checkDue = true ∧ D.pgood = true ∧ D.goodAt + 8000 ≤ s.tm.now ∧ isOn s dCK = true ∧
      (List.range d).any (fun x => (dom s x).st == .retained || ((dom s x).st == .waking && (dom s x).checkDue)) = false then
    let ok := s.pw.slotValid.toNat.testBit (d - 16) && tget 0 s.pw.slot (d - 16) == v
    let s := { s with pw := { s.pw with slotValid := setBitAt s.pw.slotValid (d - 16) false } }
    becomeOn (if ok then s else retentionLost s d) d toggling ok (!ok)
  else s
def execRetentionCheckDone (d : Nat) (v : BitVec 32) (toggling : Bool) (s : State) : Host.Outcome State Fault Refusal := event (retentionCheckDone d v toggling s)

/-! ### Failure and loss of power (R388 to R390) -/
/-- Domain `d` becomes FAILED (R389). Its ports' event is left to the Spindle's routine, which the raise in G59 calls (R355, R391). -/
def fail (s : State) (d : Nat) : State :=
  let D := dom s d
  let s := if D.checkDue then retentionLost s d else s
  let s := setDom s d { D with st := .failed, req := false, ret := false, retrying := false, checkDue := false, phase := .requestLow }
  let s := ldAdd (raise s 59 2) (0xB44 + 8 * d) 1
  wakeProgress { s with pw := { s.pw with failDue := s.pw.failDue ++ [d] } }
/-- `WAKE_TIMEOUT`: not ready within 500 µs of the request (R388). -/
def wakeTimeout (d : Nat) (s : State) : State :=
  let D := dom s d
  if D.st = .waking ∧ D.req = true ∧ D.pgood = false ∧ D.reqAt + 500000 ≤ s.tm.now then
    if D.tries = 0 then ldAdd (raise (setDom s d { D with req := false, ret := false, retrying := true, tries := 1, since := s.tm.now }) 59 3) (0xB40 + 8 * d) 1
    else fail s d
  else s
def execWakeTimeout (d : Nat) (s : State) : Host.Outcome State Fault Refusal := event (wakeTimeout d s)
/-- `WAKE_RETRY`: 1 ms after the first request was withdrawn, never while the acknowledge is high (R388, R465). -/
def wakeRetry (d : Nat) (s : State) : State :=
  let D := dom s d
  if D.st = .waking ∧ D.retrying = true ∧ D.ack = false ∧ D.since + 1000000 ≤ s.tm.now then
    setDom s d { D with req := true, ack := true, retrying := false, reqAt := s.tm.now }
  else s
def execWakeRetry (d : Nat) (s : State) : Host.Outcome State Fault Refusal := event (wakeRetry d s)
/-- Frames with cells in a PS bank that lost power complete with `LATE_POWER` (R390). -/
def psFrame (s : State) (f : TxFrame) : State :=
  match f.stage with
  | .sending | .suspended =>
    let s := stopFrame s f.port f.id kLATE_POWER false
    let L := line s f.port
    setLine s f.port (if L.tx == .frame f.id then { L with tx := .idle, txEnd := s.tm.now, cutAsked := false } else { L with suspended := none })
  | .ended => s
  | _ =>
    match f.origin with
    | .accepted => endUnsent (noteLate s false f.port f.contract (some kLATE_POWER)) f kLATE_POWER
    | .csi k => frameGone (cntCsi s k 3 1) f.id
    | _ => endUnsent (cntPort s f.port cTX_LATE 1) f kLATE_POWER
def psLost (s : State) (m : Nat) : State :=
  let l := s.tx.frames.filter (fun f => sliceOf f.port == m / 2 && decide (0 < if m % 2 = 0 then f.cells0 else f.cells - f.cells0) && f.stage != .claiming && f.stage != .atDoor)
  let s := raiseIf (!l.isEmpty) s 47 1
  l.foldl (fun s f => match txFrame s f.id with | some g => psFrame s g | none => s) s
/-- HD lost its power: indices, and every transfer that HD had in hand, are lost (log 58). -/
def hdLost (s : State) : State :=
  let s := { s with bob := { s.bob with issued := [], ready := [], tab := tmap {} (fun _ B => { B with hostIdx := 0, blockIdx := 0, next := 0, pushed := [] }) s.bob.tab }
                    rx := { s.rx with writes := [] } }
  (s.tx.frames.filter (fun f => match f.origin with | .csi _ => false | _ => true)).foldl (fun s f => frameGone s f.id) s
/-- The Ledger's flush stops with its domain: the slot it was writing has a failing CRC, and its counts stay pending (R412, log 87). -/
def ldLost (s : State) : State :=
  match s.ld.flush with
  | some f =>
    { s with ld := { s.ld with flush := none, due := [], pend := mergePending s.ld.carry s.ld.pend, carry := {}, bad := setBitAt s.ld.bad f.slot true
                               array := memWriteFree s.tm.free s.ld.array (16384 * f.slot) (imgOctets f.image 0 16384) }
             tm := { s.tm with free := s.tm.free + 1 } }
  | none => s
/-- LD loses its supply alone: a flush that is always made is due again when LD is back (R410, R412). -/
def ldCut (s : State) : State :=
  let due := (match s.ld.flush with | some f => [f.cause] | none => []).filter (fun c => c != 1 && c != 2) ++ s.ld.due
  let s := ldLost s
  { s with ld := { s.ld with due := due } }
/-- An instruction or block task is abandoned: what only its next step would have undone or used is dropped, and every object
stands as its last commit left it (R347, R350). -/
def abandon (s : State) (j : JEntry) : State :=
  let n := objNum j.cmd
  match j.opcode with
  | 0x15 => { s with tst := { s.tst with margin := tset none s.tst.margin n none } }
  | 0x13 | 0x14 | 0x30 | 0x32 | 0x33 =>
    setReply { s with sq := { s.sq with admRun := if s.sq.admRun.any (·.ring == j.ring) then none else s.sq.admRun } } j.ring none
  | 0x60 | 0x61 | 0x62 | 0xF1 => { s with tu := { s.tu with pend := s.tu.pend.filter (fun e => e.1 != j.ring) } }
  | 0xA1 => setReply (leaveStack s) j.ring none
  | 0xB0 =>
    match j.scratch with
    | [k] => { s with ck := { s.ck with extra := setBitAt s.ck.extra k false } }
    | _ => if (testOf s n).st == .running then setTest (powerUp (clearDomain s n) n false false) n {} else setTest s n {}
  | _ => s
/-- A step of entry `j` is cut off where it stands: of a rehash's bucket, copies that step 1 of R181 wrote may remain, of which the cut leaves
open how many; the hash state is that of the last completed step (R183). -/
def cutStep (s : State) (j : JEntry) : State :=
  if j.opcode = 0x54 ∧ j.stage = 1 ∧ s.stn.phase ≠ 0 ∧ s.stn.ptr < 65536 then
    let (w, s) := freeWord s
    let t := (rehashCopies s.stn.ptr (List.range (w.toNat % 9)) { s with stn := { s.stn with ptr := s.stn.ptr + 1 } }).1
    { s with stn := { s.stn with entry := t.stn.entry, rotor := t.stn.rotor } }
  else s
/-- SQ lost its power with the instructions in progress. -/
def sqLost (s : State) : State := clearDomain (s.sq.journal.foldl (fun s j => abandon (cutStep s j) j) s) dSQ
/-- What domain `d` loses with its supply while ON. -/
def lossOf (s : State) (d : Nat) : State :=
  if isSt d then lostSt s (d - 16)
  else if isBc d then lostBc s (d - 32)
  else if 40 ≤ d ∧ d < 48 then psLost s (d - 40)
  else if d = dHD then hdLost (clearDomain s d)
  else if d = dLD then ldCut s
  else if d = dSQ then sqLost s
  else clearDomain s d
/-- `PGOOD_LOSS` of a domain that is ON: ports that need it go down with `LATE_POWER`, its state is lost, and it wakes again. -/
def pgoodLoss (d : Nat) (s : State) : State :=
  let D := dom s d
  if D.st = .on ∧ D.pgood = true then
    let s := { s with pw := { s.pw with latePower := s.pw.latePower ++ [(d, s.tm.count, none)] } }
    let s := ((definedPorts s).filter (fun p => match pdef s p with | some x => (portDomains p x.width (s.port.starterPort.toNat.testBit p)).contains d | none => false)).foldl
      (fun s p => portGoesDown s p kLATE_POWER) s
    let s := setDom s d { D with st := .waking, pgood := false, phase := .none, req := true, reqAt := s.tm.now, tries := 0, checkDue := false, onFio := false, selfSwitch := false }
    lossOf s d
  else s
def execPgoodLoss (d : Nat) (s : State) : Host.Outcome State Fault Refusal := event (pgoodLoss d s)

/-! ### Wake events (R382), power-fail notice (R391) -/
/-- The event of the kind is one the masks admit now. Those of kinds 3 and 5 are made by the raise itself (R363, R364). -/
def wakeOk (s : State) (kind num : Nat) (frame : Octets) : Bool :=
  match kind with
  | 1 => s.pw.linkMask.toNat.testBit num
  | 2 => listenMatch s num frame
  | 4 => s.pw.sleep == .asleep && s.pw.timerEn && decide (s.pw.isoAt + s.pw.timerMs.toNat * 1000000 ≤ s.tm.now)
  | _ => false
def execWakeEvent (kind num : Nat) (frame : Octets) (s : State) : Host.Outcome State Fault Refusal := event (if wakeOk s kind num frame then wakeEvent s kind num else s)
def execLinkActivity (lane : Nat) (s : State) : Host.Outcome State Fault Refusal := event (if wakeOk s 1 lane [] then wakeEvent s 1 lane else s)
def execWakeTimerExpiry (s : State) : Host.Outcome State Fault Refusal := event (if wakeOk s 4 0 [] then wakeEvent s 4 0 else s)
def powerFailNotice (s : State) : State :=
  if s.pw.notice = false ∧ s.pw.edge ≠ .reset then
    let s := { s with pw := { s.pw with notice := true, latePower := s.pw.latePower ++ [(63, s.tm.count, none)] } }
    flushFor (raise s 63 16) 3
  else s
def execPowerFailNotice (s : State) : Host.Outcome State Fault Refusal := event (powerFailNotice s)
def powerFailNoticeWithdrawn (s : State) : State := if s.pw.notice then endLatePower { s with pw := { s.pw with notice := false } } 63 else s
def execPowerFailNoticeWithdrawn (s : State) : Host.Outcome State Fault Refusal := event (powerFailNoticeWithdrawn s)

end Sys2Proof.Machine
end

