-- ==== Sys2Proof/Machine/ResetOps.lean ====
section
/-! DEFINITION. Resets, start-up and starter service (19), the ROM check (R336, R337), what a reset leaves in the
interrupted-instruction record (R348), and `SELFTEST`, `LOOPBACK`, `SYS.*` (R331, R332, R334, R407, R490 to R493). -/
namespace Sys2Proof.Machine

/-! ### The reactions of the block itself (R355, R391, R449, R478) -/
/-- The ports that need a domain newly FAILED raise their event (R389). -/
def portsFailed (s : State) : State :=
  let l := s.pw.failDue
  ((definedPorts s).filter (fun p => match pdef s p with | some x => (portDomains p x.width (s.port.starterPort.toNat.testBit p)).any l.contains | none => false)).foldl
    (fun s p => raise s p 13) { s with pw := { s.pw with failDue := [] } }
/-- A member whose Distaff is out of reach is an orphan (R439). -/
def orphaned (s : State) : State :=
  if s.stk.st = .member ∧ reachable s s.stk.distaff = false then becomeOrphan s else s
/-- A routine of the Spindle acts on the state of every domain and of the reach vector as it stands. What a rule has at once, the door's
refusal of R438, the loss of state of R390, is done where its condition arises (log 86). -/
def reapply (s : State) : State :=
  let s := orphaned (portsFailed s)
  (stackContracts s (fun C => !C.suspended && !maskReach s C.img.stackMask)).foldl (fun s n =>
    match (List.range 32).find? (fun i => (contr s n).img.stackMask.toNat.testBit i && !reachable s i) with
    | some i => suspendCt i s n
    | none => s) s

/-! ### The interrupted-instruction record at a reset (R348, R482) -/
/-- A slot's instruction was abandoned for `cause`. -/
def markIir (s : State) (n cause : Nat) : State := setIir s n { iir s n with valid := true, reported := false, cause := BitVec.ofNat 2 cause }
/-- Block tasks abandoned: slot 8 holds the oldest. -/
def markTask (s : State) (cause : Nat) : State :=
  match s.sq.journal.find? (·.task) with
  | some e => markIir (noteIir s e) 8 cause
  | none => s
/-- Instructions between their first commit and their FINISH, and a `WAIT`, which has committed nothing: STEP 0. -/
def markRings (s : State) (cause : Nat) : State :=
  (List.range 8).foldl (fun s r =>
    let R := ring s r
    match R.wait with
    | some w => markIir (noteIir s { ring := r, opcode := 0x02, cmd := w.cmd, index := w.index }) r cause
    | none => if R.held then markIir s r cause else s) s
/-- A reset of greater reach takes over: the cause of what the soft reset had abandoned becomes its own (R482). -/
def overtake (s : State) : State := if s.sq.inSoftReset && (iir s 8).valid && (iir s 8).cause == 1 then markIir s 8 2 else s

/-! ### Soft reset (R477, R478) -/
def slowSq (s : State) : Bool := (dom s dSQ).onFio
/-- 64 CT cycles, or FIO cycles while SQ runs on FIO (R385). -/
def softNs (s : State) : Nat := if slowSq s then 160 else 80
/-- A self-test that a reset cuts off leaves its domain at its power-up values. -/
def dropTests (s : State) : State :=
  let s := (s.tst.dom.filter (fun e => e.2.st == .running)).foldl (fun s e => powerUp (clearDomain s e.1) e.1 false false) s
  { s with tst := { s.tst with dom := [], loopDefer := [] } }
/-- The soft reset begins: rings, journal and runs end, T4's bits and claim are cleared (R366), the door and the Whorls hold. -/
def softReset (s : State) : State :=
  let s := endRuns (dropTests (clearRings (markTask s 1)))
  { s with
    ic := { s.ic with group := tmap {} (fun _ G => { G with t4 := 0, t4Seen := 0 }) s.ic.group }
    sq := { s.sq with released := false, inSoftReset := true, t4Claim := none }
    pw := { s.pw with softHold := true, softAt := s.tm.now, lateReset := s.pw.lateReset ++ [(s.tm.count, none)] } }
/-- `SOFT_RESET_EXIT`: SQ leaves its 64 cycles of reset, and channel 63 checks the ROM. -/
def softResetExit (s : State) : State :=
  if s.sq.inSoftReset = true ∧ s.pw.softAt + softNs s ≤ s.tm.now then
    resetExit { s with sq := { s.sq with inSoftReset := false }, ck := { s.ck with extra := setBitAt s.ck.extra 63 true } } 2
  else s
def execSoftResetExit (s : State) : Host.Outcome State Fault Refusal := event (softResetExit s)
/-- The hold of R478 ends: the cause interval closes, and the door decides what it held back. -/
def endHold (s : State) : State :=
  let close := fun (e : Nat × Option Nat) => match e.2 with | none => (e.1, some s.tm.count) | some _ => e
  doorsHeld { s with pw := { s.pw with softHold := false, lateReset := s.pw.lateReset.map close } }

/-! ### Block and cold reset (R479 to R482) -/
/-- The handshake of a domain that a reset takes OFF: request and retention fall at once, what the supply answers is yet to
come, and the 20 µs of R373 that run go on. -/
def downDom (D : Domain) : Domain :=
  { pgood := D.pgood, ack := D.ack, offAt := D.offAt
    phase := if D.pgood || D.ack then .requestLow else if D.phase == .holdoff then .holdoff else .none }
/-- Every switched domain OFF, and AON as after a cold reset, with the Ledger's array, its broken slots and the fuse rows. -/
def wiped (s : State) (k : ResetKind) : State :=
  let s := ldLost s
  { tm := { now := s.tm.now, count := s.tm.count, free := s.tm.free }
    ic := (irqReset s).ic
    pw := { dom := tmap {} (fun _ D => downDom D) s.pw.dom, edge := .reset, resetKind := k, resetAt := s.tm.now }
    ld := { array := s.ld.array, fuse := s.ld.fuse, bad := s.ld.bad, tried := s.ld.tried }
    mem := s.mem
    pending := s.pending }
/-- What of AON a block reset keeps besides (R480). -/
def blockWiped (s : State) : State :=
  let s := ldLost (overtake (markTask (markRings s 2) 2))
  let t := wiped s .block
  { t with
    ld := { t.ld with pend := s.ld.pend, interval := s.ld.interval, fraction := s.ld.fraction, looked := s.ld.looked, worn := s.ld.worn }
    sq := { t.sq with iir := s.sq.iir }
    pw := { t.pw with lastWake := s.pw.lastWake } }
/-- `BLOCK_RESET`: it changes nothing while a block or cold reset is in force. -/
def blockReset (s : State) : State := if s.pw.edge = .reset then s else blockWiped s
def execBlockReset (s : State) : Host.Outcome State Fault Refusal := event (blockReset s)
/-- `COLD_RESET`: it takes over from every other reset. -/
def coldReset (s : State) : State := if s.pw.edge = .reset ∧ s.pw.resetKind = .cold then s else wiped s .cold
def execColdReset (s : State) : Host.Outcome State Fault Refusal := event (coldReset s)
/-- Steps 1 to 3 of R483: the edges go LIVE, the fuse rows are read, and the boot set is requested. -/
def startUp (s : State) : State :=
  { s with pw := { s.pw with edge := .live, startUp := .bootSet, bootHeld := true, talliesRead := true, resetAt := s.tm.now } }
def blockResetRelease (s : State) : State := if s.pw.edge = .reset ∧ s.pw.resetKind = .block then startUp s else s
def execBlockResetRelease (s : State) : Host.Outcome State Fault Refusal := event (blockResetRelease s)
def coldResetRelease (s : State) : State := if s.pw.edge = .reset ∧ s.pw.resetKind = .cold then startUp s else s
def execColdResetRelease (s : State) : Host.Outcome State Fault Refusal := event (coldResetRelease s)

/-! ### The ROM check (R336, R337, R483) -/
/-- Words `a` to `a + n - 1` of the ROM as the check takes them: 18 octets each, the low octet first (R336). -/
def romBytes (a n : Nat) : Octets := (List.range n).flatMap (fun i => le 18 (Config.romWord (a + i)).toNat)
/-- The CRC that channel 63 computes: CRC-64/XZ over words 0 to 16,375 (R336). -/
def romCrc : BitVec 64 := BitVec.ofNat 64 (crc64 (romBytes 0 16376))
/-- All eight words of the signature block equal the computed value in all 144 bits (R336). -/
def romPasses : Bool := (List.range 8).all (fun i => Config.romWord (16376 + i) == BitVec.ofNat 144 romCrc.toNat)
def anyInterrupted (s : State) : Bool := (List.range 9).any (fun n => (iir s n).valid)
/-- Step 5: starter service begins, and its counter starts at zero (R486). -/
def beginStarter (s : State) : State :=
  { s with pw := { s.pw with startUp := .done, starter := true }, st0 := { running := true, trimAt := s.tm.now }, tm := { s.tm with count := 0 } }
/-- The check fails: HELD, with every domain OFF but LD, whose flush counts the failure (R337, R410, R474). -/
def enterHeld (s : State) : State :=
  let s := ldLost s
  let t := wiped s s.pw.resetKind
  let ld := dom s dLD
  let t := { t with
    ld := { t.ld with pend := s.ld.pend, interval := s.ld.interval, fraction := s.ld.fraction, looked := s.ld.looked, worn := s.ld.worn }
    sq := { t.sq with iir := s.sq.iir, heldState := true }
    pw := { t.pw with edge := .held, startUp := .done, lastWake := s.pw.lastWake, lastReset := s.pw.lastReset, resetAt := s.pw.resetAt, talliesRead := true } }
  flushFor (ldAdd (setDom t dLD (if ld.st == .on then ld else downDom ld)) 0xE60 1) 4
/-- `ROM_CHECK_DONE`: channel 63's result and outcome, then the Spindle's release or HELD. After a soft reset the block task of
R478 runs first, and the hold ends with it. -/
def romCheckDone (s : State) : State :=
  if s.ck.extra.toNat.testBit 63 = true ∧ isOn s dSQ = true ∧ s.sq.inSoftReset = false then
    let s := setChan s 63 { chan s 63 with result := romCrc, outcome := if romPasses then 2 else 3 }
    let s := { s with ck := { s.ck with extra := setBitAt s.ck.extra 63 false } }
    if romPasses then
      let s := { s with sq := { s.sq with released := true } }
      let s := if s.pw.startUp = .romCheck then beginStarter s else s
      let s := if s.pw.softHold then endHold (reapply s) else s
      raiseIf (anyInterrupted s) s 58 1
    else enterHeld s
  else s
def execRomCheckDone (s : State) : Host.Outcome State Fault Refusal := event (romCheckDone s)

/-! ### `SYS.RESET` and `SYS.STARTER` (R334, R488) -/
def useByte8 (_ : Cmd) : List (Nat × Nat × Nat) := [(8, 0, 8)]
/-- `SYS.RESET` answers DONE; the reset begins once its record is written. -/
def bodySysReset (j : JEntry) (s : State) : StepRes :=
  guarded [(fld j.cmd 8 0 8 != 0, sBAD_OPERAND)] s (stop sDONE { s with sq := { s.sq with resetBy := some j.ring } })
def execSysReset (c : Cmd) (s : State) : Host.Outcome State Fault Refusal := instr 0xF0 useByte8 bodySysReset c s
/-- A powered domain runs on FIO. -/
def anyFio (s : State) : Bool := (List.range 56).any (fun d => isOn s d && (dom s d).onFio)
def bodySysStarter (j : JEntry) (s : State) : StepRes :=
  if j.stage = 1 then stop sDONE s
  else guarded [(anyFio s, sBUSY), (!s.pw.starter, sDONE_NOTE)] s (awaitBoundary j .starter s)
def execSysStarter (c : Cmd) (s : State) : Host.Outcome State Fault Refusal := instr 0xF1 useNone bodySysStarter c s

/-! ### `SELFTEST` (R331, R407, R491 to R493) -/
def useTest (_ : Cmd) : List (Nat × Nat × Nat) := [(8, 0, 8), (9, 0, 1)]
/-- The test fits the domain. -/
def testFits (t d : Nat) : Bool :=
  match t with
  | 0 => d == dLD
  | 1 => d == dCK
  | 2 => decide (16 ≤ d) && decide (d < 48) || decide (54 ≤ d) && decide (d < 56)
  | 3 => decide (d < 16)
  | _ => false
/-- Counts of the Ledger's SELFTEST field: runs, failures, and the row and test of the last failure (R413). -/
def testCount (s : State) (d t : Nat) (o : SelfTestEnd) : State :=
  let s := ldAdd s (0x1000 + 8 * d) 1
  match o with
  | .fail row => ldRec (ldAdd s (0x1002 + 8 * d) 1) (0x1004 + 8 * d) (le 2 row ++ le 2 t)
  | _ => s
/-- Outcome in [7:0], first failing row or element in [31:16]. -/
def testResult (o : SelfTestEnd) : BitVec 64 :=
  match o with
  | .pass => 0
  | .fail row => BitVec.ofNat 64 (1 + row % 2 ^ 16 * 2 ^ 16)
  | .aborted => 2
/-- The scrub: the first slot whose MAGIC stands and whose CRC does not match (R493). -/
def scrub (s : State) : SelfTestEnd :=
  match (List.range 4).find? (fun c => imgGet (slotImage s c) 0 4 == 0x53574C44 && !slotValid s c) with
  | some c => .fail c
  | none => .pass
def checkText : Octets := [0x31, 0x32, 0x33, 0x34, 0x35, 0x36, 0x37, 0x38, 0x39]
/-- The two computations of R407. -/
def knownAnswer : SelfTestEnd :=
  if crc 32 0x1EDC6F41 0xFFFFFFFF true true 0xFFFFFFFF checkText = 0xE3069283 ∧
     crc64 checkText = 0x995DC9BBDF1939FA then .pass else .fail 0
def liveDone (s : State) (d t : Nat) (o : SelfTestEnd) : StepRes := .done sDONE (testResult o) (testCount s d t o)
/-- A loopback of a port whose lanes or slice domain `d` serves waits (R491). -/
def loopWaits (s : State) (d : Nat) : Bool :=
  s.tst.loopDefer.any (fun e => e.2.isSome && (match pdef s e.1 with | some x => (lgOf e.1 x.width ++ [dMS (sliceOf e.1)]).contains d | none => false))
/-- The entry of a deferred test in the step queue (R346). -/
def testTask (s : State) (j : JEntry) (d : Nat) : State :=
  let e : JEntry := { ring := 8, task := true, opcode := 0xB0, cmd := j.cmd, index := j.index, cond := .testEnd d, since := s.tm.now }
  noteIir { s with sq := { s.sq with journal := s.sq.journal ++ [e] } } e
def bodySelftest (j : JEntry) (s : State) : StepRes :=
  let c := j.cmd
  let d := objNum c
  let t := fld c 8 0 8
  let quick := fbit c 9 0
  if j.stage = 1 then
    match j.scratch with
    | [n] => liveDone { s with ck := { s.ck with extra := setBitAt s.ck.extra n false } } d t knownAnswer
    | _ =>
      match (testOf s d).result with
      | some r => .done sDONE r (setTest s d { testOf s d with result := none })
      | none => stop sPOWER_FAILED (setTest s d {})
  else
    guarded [(!testFits t d, sBAD_OPERAND)] s
      (if t = 0 then (if s.ld.flush.isSome then .wait s .flushEnd 0 0 [] else liveDone s d t (scrub s))
       else if t = 1 then
         match (List.range 62).find? (fun n => !chanBusy s n) with
         | none => stop sBUSY s
         | some n => .wait { s with ck := { s.ck with extra := setBitAt s.ck.extra n true } } .ready 1 0 [n]
       else if (testOf s d).st != .none || loopWaits s d then stop sBUSY s
       else if isFailed s d then stop sPOWER_FAILED s
       else if dataVotes s d = 0 then .wait (setTest s d { st := .running, test := t, ring := j.ring, noWait := quick }) (.testEnd d) 1 0 []
       else if quick then stop sBUSY s
       else stop sDEFERRED (testTask (setTest s d { st := .deferred, test := t, ring := 8 }) j d))
def execSelftest (c : Cmd) (s : State) : Host.Outcome State Fault Refusal := instr 0xB0 useTest bodySelftest c s
/-- The entry of the deferred test of domain `d` leaves the step queue. -/
def isTestTask (d : Nat) (e : JEntry) : Bool := e.task && e.cond == .testEnd d
def dropTask (s : State) (d : Nat) : State := { s with sq := { s.sq with journal := s.sq.journal.filter (fun e => !isTestTask d e) } }
/-- `SELFTEST_END`: an abort needs a data vote (R492). The domain takes its power-up values; the outcome goes to the waiting
instruction, or to the Ledger and G58; an aborted test is deferred again. -/
def selftestEnd (d : Nat) (o : SelfTestEnd) (s : State) : State :=
  let t := testOf s d
  if t.st = .running ∧ isOn s d = true ∧ (o ≠ .aborted ∨ dataVotes s d ≠ 0) then
    let s := testCount (powerUp (clearDomain s d) d false false) d t.test o
    let s := if t.ring < 8 then s else { s with ld := { s.ld with testRec := tset 0 s.ld.testRec d (testResult o) } }
    if t.ring < 8 then
      let s := setTest s d { t with st := .none, result := some (testResult o) }
      if o = .aborted then
        match s.sq.journal.find? (fun e => e.cond == .testEnd d) with
        | some e => testTask (setTest s d { testOf s d with st := .deferred, ring := 8 }) e d
        | none => s
      else s
    else if o = .aborted then raise (setTest s d { t with st := .deferred }) 58 2
    else raise (dropTask (setTest s d {}) d) 58 2
  else s
def execSelftestEnd (d : Nat) (o : SelfTestEnd) (s : State) : Host.Outcome State Fault Refusal := event (selftestEnd d o s)

/-! ### `LOOPBACK` (R332) -/
/-- A test or a loopback of the port's lanes or slice waits or runs (R491). -/
def loopBusy (s : State) (p : Nat) : Bool :=
  (tget none s.tst.loopDefer p).isSome ||
  (match pdef s p with | some x => (lgOf p x.width ++ [dMS (sliceOf p)]).any (fun d => (testOf s d).st != .none) | none => false)
def bodyLoopback (j : JEntry) (s : State) : StepRes :=
  let c := j.cmd
  let p := objNum c
  let m := fld c 8 0 8
  guarded [(decide (2 < m), sBAD_OPERAND), (loopBusy s p, sBUSY)] s
    (if m = 0 ∨ loopFree s p = true then stop sDONE (setLoop s p m)
     else if fbit c 9 0 then stop sBUSY s
     else stop sDEFERRED { s with tst := { s.tst with loopDefer := tset none s.tst.loopDefer p (some m) } })
def execLoopback (c : Cmd) (s : State) : Host.Outcome State Fault Refusal := instr 0xB1 useTest bodyLoopback c s

end Sys2Proof.Machine
end

