-- ==== Sys2Proof/Machine/Registers.lean ====
section
/-! DEFINITION. The register window (20, R460, R461): where each register lies, what it reads as (R498 to R503), and what a write
does: `CR_*` and `RESUME` (R269 to R272, R284, R349) and every other register by its access code (R3, R4). -/
namespace Sys2Proof.Machine

/-! ### Where a register lies (R494 to R497, R501 to R503) -/
inductive Site where
  | reserved
  | aon
  | dom (d : Nat)
  /-- domain SQ, whose registers a soft reset takes away (R477) -/
  | sq
  | timeNow
  | index (b : Nat)
  | ringPush (r : Nat)
  | bobPush (b : Nat)
deriving DecidableEq, Repr
/-- `n` objects of `size` bytes at `base`, each with registers in its first `used` bytes. -/
def inBlocks (a base size n used : Nat) : Bool := decide (base ≤ a) && decide (a < base + size * n) && decide ((a - base) % size < used)
def ctrSite (k : Nat) : Site := .dom (csOf k)
/-- The register at the multiple of 8 `a`. -/
def siteOf (a : Nat) : Site :=
  if a < 0x18 ∨ (0x100 ≤ a ∧ a < 0x118) then .aon
  else if a = 0x200 ∨ a = 0x208 then .timeNow
  else if a = 0x210 ∨ a = 0x218 then .dom dTU
  else if inBlocks a 0x1000 0x100 8 0x30 then .sq
  else if inBlocks a 0x2000 0x80 8 0x80 then .ringPush ((a - 0x2000) / 0x80)
  else if inBlocks a 0x3000 0x20 9 0x18 then .aon
  else if inBlocks a 0x4000 0x20 32 0x18 then .dom (dMS (sliceOf ((a - 0x4000) / 0x20)))
  else if 0x5000 ≤ a ∧ a < 0x5018 then .aon
  else if 0x6000 ≤ a ∧ a < 0x6020 then .dom dSL
  else if inBlocks a 0x100000 0x20 64 0x18 || inBlocks a 0x101000 0x20 4 0x18 then .aon
  else if inBlocks a 0x200000 0x300 32 0x300 then ctrSite (sliceOf ((a - 0x200000) / 0x300))
  else if inBlocks a 0x206000 0x100 32 0x100 then ctrSite (sliceOf ((a - 0x206000) / 0x100))
  else if inBlocks a 0x208000 0x80 4 104 then ctrSite ((a - 0x208000) / 0x80)
  else if inBlocks a 0x208200 0x20 4 0x20 then ctrSite ((a - 0x208200) / 0x20)
  else if inBlocks a 0x208400 0x40 8 0x40 then .dom dHD
  else if inBlocks a 0x210000 0x10000 4 0x10000 then ctrSite ((a - 0x210000) / 0x10000)
  else if 0x250000 ≤ a ∧ a < 0x270000 then .dom (dBC ((a - 0x250000) / 8 / 2048))
  else if 0x270000 ≤ a ∧ a < 0x278000 then .dom (dBC ((a - 0x270000) / 8 / 512))
  else if 0x278000 ≤ a ∧ a < 0x278200 then .dom (dBC ((a - 0x278000) / 8 / 8))
  else if 0x400000 ≤ a ∧ a < 0x600000 then .index ((a - 0x400000) / 8)
  else if 0x2000000 ≤ a ∧ a < 0x4000000 then .bobPush ((a - 0x2000000) / 128)
  else .reserved
/-- Registers of SQ answer. -/
def sqOpen (s : State) : Bool := portOpen s && isOn s dSQ && !s.sq.inSoftReset
/-- The edge state and start-up let an access at `a` through: the identity registers answer from the release on (R461, R474, R483). -/
def edgeOpen (s : State) (a : Nat) : Bool := portOpen s || (s.pw.edge != .reset && decide (a < 0x100))
/-- The access is answered SERVED (R461). -/
def siteOpen (s : State) (a : Nat) : Bool :=
  edgeOpen s a &&
  match siteOf a with
  | .reserved => false
  | .aon => true
  | .dom d => isOn s d
  | .sq | .ringPush _ => sqOpen s
  | .timeNow => s.st0.running || isOn s dTU
  | .index b | .bobPush b => idxOpen s b

/-! ### What registers read as -/
def word (l : List (Nat × Nat)) : BitVec 64 := BitVec.ofNat 64 (l.foldl (fun a e => a + e.2 * 2 ^ e.1) 0)
def domBits (f : Nat → Bool) : Nat := (List.range 56).foldl (fun a d => a + b2n (f d) * 2 ^ d) 0
def anyFailed (s : State) : Bool := (List.range 56).any (isFailed s)
/-- `BLK_VERSION` (R498). -/
def blkVersion : BitVec 64 := word [(0, Config.stepping.toNat), (8, Config.major.toNat), (16, Config.romImage.toNat), (24, 1)]
/-- `BLK_CAPS` (R498), which the tallies give from 2.56 µs after the release on (R483). -/
def blkCaps (s : State) : BitVec 64 :=
  if s.pw.talliesRead = true ∧ s.pw.resetAt + 2560 ≤ s.tm.now then
    word ([(0, instanceId s), (5, tally s 9 % 2), (6, tally s 11 % 2), (7, tally s 12 % 2), (8, tally s 8 % 64)] ++ (List.range 8).map (fun g => (16 + 3 * g, tally s g % 8)))
  else 0
/-- `BLK_STATUS` (R499). -/
def blkStatus (s : State) : BitVec 64 :=
  word [(0, b2n s.pw.starter), (1, b2n s.pw.softHold), (2, b2n (s.pw.sleep == .entry)), (3, b2n (anyFailed s)), (4, b2n s.pw.notice), (8, s.pw.lastReset.toNat)]
def stateCode : RingState → Nat
  | .disabled => 0 | .running => 1 | .waiting => 2 | .halted => 3 | .stalled => 4
/-- Registers of a command ring at offset `o` (R269). -/
def ringReg (R : Ring) (o : Nat) : BitVec 64 :=
  match o with
  | 0x00 => word [(0, b2n R.enable), (2, R.priv.toNat), (4, R.sizeLog2.toNat)]
  | 0x08 => word [(6, R.base.toNat)]
  | 0x10 => word [(6, R.cplBase.toNat)]
  | 0x18 => word [(0, R.hostIdx.toNat), (32, R.blockIdx.toNat)]
  | 0x20 => word [(0, R.cplHostIdx.toNat), (32, R.cplBlockIdx.toNat)]
  | _ => word [(0, stateCode R.state), (3, b2n R.idxErr), (4, b2n R.pushRej), (16, R.tag.toNat)]
/-- Registers of an interrupted-instruction slot (R348). -/
def iirReg (n : Nat) (i : IirSlot) (o : Nat) : BitVec 64 :=
  match o with
  | 0x00 => word [(0, b2n i.valid), (1, b2n i.reported), (2, b2n (n == 8 && i.task)), (3, i.cause.toNat), (8, i.opcode.toNat), (16, i.tag.toNat), (32, i.object.toNat), (56, i.sub.toNat)]
  | 0x08 => word [(0, i.step.toNat), (32, i.index.toNat)]
  | _ => i.progress
/-- Registers of a transmit time-stamp queue, as a read finds them before it acts (R87). -/
def tsqReg (L : Line) (o : Nat) : BitVec 64 :=
  match o with
  | 0x00 => match L.tsq with | [] => 0 | e :: _ => tsqLo e
  | 0x08 => L.tsqHi
  | _ => word [(0, L.tsq.length), (8, b2n L.tsqOvf)]
/-- `CK_RUNNING` (R404). -/
def ckRunning (s : State) : BitVec 64 :=
  s.ck.extra ||| BitVec.ofNat 64 ((List.range 62).foldl (fun a n => a + b2n (chan s n).run.isSome * 2 ^ n) 0)
/-- Stack registers (R448). -/
def stkReg (s : State) (o : Nat) : BitVec 64 :=
  match o with
  | 0x00 => word [(0, stkNum s.stk.st), (3, s.stk.distaff % 32), (8, instanceId s), (16, s.stk.hops), (32, s.stk.gen)]
  | 0x08 => word [(0, s.stk.reach.toNat), (32, s.stk.members.toNat)]
  | 0x10 => ofInt 64 s.stk.stepOfs
  | _ => s.stk.stepTime
/-- A target's output, as decided in step 4 of the last AO cycle (R356, R357). -/
def irqOut (s : State) (t : Nat) : Bool := s.ic.out.toNat.testBit t
/-- Group and target registers (R362), as a read finds them before it acts. -/
def groupReg (s : State) (g o : Nat) : BitVec 64 :=
  let G := grp s g
  match o with
  | 0x00 => word [(0, G.pend.toNat)]
  | 0x08 => word [(0, G.en.toNat)]
  | _ => word [(0, b2n (gateSeen s G)), (1, holdCount s G)]
def targetReg (s : State) (t o : Nat) : BitVec 64 :=
  let T := tgt s t
  match o with
  | 0x00 => match topSource s t with | none => 0x7FF | some (src, p) => word [(0, src), (11, p)]
  | 0x08 => 0
  | _ => word ([(0, running T - 1), (4, b2n (!T.service.isEmpty)), (5, b2n (irqOut s t)), (6, b2n T.eoiErr), (7, b2n T.sleepHeld), (8, b2n T.sleepGranted)] ++
      (List.range 16).map (fun p => (16 + p, b2n (T.service.any (fun e => e.2 == p)))))
/-- `IDX_ENTRY` (R194, R389). -/
def idxReg (s : State) (b : Nat) : BitVec 64 :=
  let B := bobn s b
  word [(0, B.hostIdx), (32, B.blockIdx), (49, bobState s b), (51, kindNum B.kind)]
/-- Words of the crumb, notify and summary arrays (R503). -/
def crumbWord (s : State) (w : Nat) : BitVec 64 := word ((List.range 16).map (fun i => (4 * i, (bobn s (16 * w + i)).crumbs.toNat)))
def notifyWord (s : State) (w : Nat) : BitVec 64 := word ((List.range 64).map (fun i => (i, b2n (tget false s.bob.notify (64 * w + i)))))
def summaryWord (s : State) (w : Nat) : BitVec 64 := word ((List.range 64).map (fun i => (i, b2n (tget false s.bob.summary (64 * w + i)))))
/-- Counter 96·p + i of the ports; a hold and a low-power idle that last count up to now (R62). -/
def portCount (s : State) (k : Nat) : BitVec 64 :=
  let L := line s (k / 96)
  let runs := if k % 96 = cPAUSE_HOLD_TIME then L.heldSince else if k % 96 = 51 ∧ L.lpi = true then some L.lpiAt else none
  tget 0 s.ctr.port k + match runs with | some t => BitVec.ofNat 64 ((tget 0 s.ctr.rest k + (s.tm.now - t)) / 8) | none => 0
/-- What a read of the register at `a` returns when its site is open; one whose strobes select fewer than all bytes returns zero (R495). -/
def readAt (s : State) (a : Nat) (strobe : BitVec 8) : BitVec 64 :=
  if strobe ≠ 0xFF then 0
  else if a = 0x00 then 0x53570032
  else if a = 0x08 then blkVersion
  else if a = 0x10 then blkCaps s
  else if a = 0x100 then blkStatus s
  else if a = 0x108 then BitVec.ofNat 64 (domBits (isOn s) + 2 ^ 63)
  else if a = 0x110 then BitVec.ofNat 64 (domBits (isFailed s))
  else if a = 0x200 then BitVec.ofNat 64 (nowBits s)
  else if a = 0x208 then word [(0, s.tm.nowHi.toNat)]
  else if a = 0x210 then BitVec.ofNat 64 (t96bits s.tu.capture)
  else if a = 0x218 then word [(0, s.tu.captureHi.toNat)]
  else if a < 0x2000 then ringReg (ring s ((a - 0x1000) / 0x100)) (a % 0x100)
  else if a < 0x3000 then 0
  else if a < 0x4000 then iirReg ((a - 0x3000) / 0x20) (iir s ((a - 0x3000) / 0x20)) (a % 0x20)
  else if a < 0x5000 then tsqReg (line s ((a - 0x4000) / 0x20)) (a % 0x20)
  else if a < 0x6000 then (if a = 0x5000 then ckRunning s else if a = 0x5008 then s.ck.done else s.ck.mismatch)
  else if a < 0x100000 then stkReg s (a % 0x20)
  else if a < 0x101000 then groupReg s ((a - 0x100000) / 0x20) (a % 0x20)
  else if a < 0x200000 then targetReg s ((a - 0x101000) / 0x20) (a % 0x20)
  else if a < 0x206000 then portCount s ((a - 0x200000) / 8)
  else if a < 0x208000 then tget 0 s.ctr.hist ((a - 0x206000) / 8)
  else if a < 0x208200 then tget 0 s.ctr.slice (13 * ((a - 0x208000) / 0x80) + a % 0x80 / 8)
  else if a < 0x208400 then tget 0 s.ctr.csi ((a - 0x208200) / 8)
  else if a < 0x210000 then tget 0 s.ctr.bank ((a - 0x208400) / 8)
  else if a < 0x250000 then tget 0 s.ctr.rule ((a - 0x210000) / 8)
  else if a < 0x270000 then crumbWord s ((a - 0x250000) / 8)
  else if a < 0x278000 then notifyWord s ((a - 0x270000) / 8)
  else if a < 0x400000 then summaryWord s ((a - 0x278000) / 8)
  else if a < 0x600000 then idxReg s ((a - 0x400000) / 8)
  else 0

/-! ### Command ring registers (R269 to R272, R349) -/
def alignedRing (R : Ring) : Bool :=
  (64 * R.base.toNat) % min 4096 (32 * ringSize R) == 0 && (64 * R.cplBase.toNat) % min 4096 (16 * ringSize R) == 0
/-- The record of R349 for a ring whose slot is VALID and not yet reported. -/
def iirRecord (i : IirSlot) : CmdRecord :=
  { status := sINTERRUPTED_BY_RESET, opcode := i.opcode, tag := i.tag, index := i.index, linked := false, irq := true, result := i.progress }
/-- ENABLE goes from 0 to 1. -/
def enableRing (s : State) (r : Nat) (R : Ring) : State :=
  let i := iir s r
  let due := i.valid && !i.reported
  let s := setRing s r { R with
    enable := true, hostIdx := 0, blockIdx := 0, cplHostIdx := 0, cplBlockIdx := 0, state := .running, stopping := false, held := false, wait := none, left := 0
    skip := none, haltAfter := false, inGroup := false, openSerial := 0, lastSerial := none, fenceNeed := [], pushed := []
    record := if due then some (iirRecord i) else none, iirRecord := due }
  if due then setIir s r { i with reported := true } else s
/-- The ring stops: what it still holds is abandoned without a record. -/
def disableRing (s : State) (r : Nat) : State :=
  let s := setRing s r { ring s r with
    enable := false, state := .disabled, stopping := false, wait := none, record := none, iirRecord := false, left := 0, skip := none, haltAfter := false
    inGroup := false, openSerial := 0, lastSerial := none, fenceNeed := [], pushed := [] }
  { s with sq := { s.sq with owner := if s.sq.owner = some r then none else s.sq.owner, resetBy := if s.sq.resetBy = some r then none else s.sq.resetBy } }
/-- A write clears ENABLE, which reads 0 from then on: the command or group in progress runs to its end, and STATE becomes DISABLED then; a
`WAIT` ends at once (R270, log 61). -/
def stopRing (s : State) (r : Nat) : State :=
  let R := ring s r
  if R.state ≠ .halted ∧ R.wait.isNone ∧ (R.held || R.record.isSome || decide (0 < R.left)) = true then setRing s r { R with enable := false, stopping := true } else disableRing s r
def storePriv (R : Ring) (p : BitVec 2) (sec : Bool) : Ring := if !R.enable && sec && p != 3 then { R with priv := p } else R
def storeSize (R : Ring) (v : BitVec 4) : Ring := if !R.enable && decide (3 ≤ v.toNat) && decide (v.toNat ≤ 12) then { R with sizeLog2 := v } else R
/-- A write of `CR_CFG`: each field under its own condition. -/
def cfgWrite (s : State) (r : Nat) (v : BitVec 64) (sec : Bool) : State :=
  let old := ring s r
  let R := storeSize (storePriv old (v.extractLsb' 2 2) sec) (v.extractLsb' 4 4)
  if v.getLsbD 0 then
    if !old.enable && !old.stopping && alignedRing R then enableRing s r R else setRing s r R
  else if old.enable then stopRing (setRing s r R) r else setRing s r R
/-- An access to a register of SQ: its effect and SERVED, or ABSENT. -/
def sqAccess (s : State) (f : State → State) : State := if sqOpen s then setReg (f s) .served [] else setReg s .absent []
def execCrEnable (r : Nat) (v : BitVec 64) (sec : Bool) (s : State) : Host.Outcome State Fault Refusal := event (sqAccess s (fun s => cfgWrite s r (v ||| 1) sec))
def execCrDisable (r : Nat) (v : BitVec 64) (sec : Bool) (s : State) : Host.Outcome State Fault Refusal := event (sqAccess s (fun s => cfgWrite s r (v &&& ~~~ 1) sec))
def execCrPrivWrite (r : Nat) (priv : BitVec 2) (sec : Bool) (s : State) : Host.Outcome State Fault Refusal :=
  event (sqAccess s (fun s => setRing s r (storePriv (ring s r) priv sec)))
def execCrSizeWrite (r : Nat) (size : BitVec 4) (s : State) : Host.Outcome State Fault Refusal := event (sqAccess s (fun s => setRing s r (storeSize (ring s r) size)))
def rejectIdx (s : State) (r : Nat) : State := raise (setRing s r { ring s r with idxErr := true }) (50 + r) 1
/-- A fence that is the next command from now on looks at the commands in progress now (R282). -/
def nextFence (s : State) (R : Ring) : Ring := if cmdOcc R = 0 then { R with fenceNeed := fenceSnap s } else R
/-- A write of the command queue's HOST_IDX (R271). -/
def doorbell (s : State) (r : Nat) (v : BitVec 64) : State :=
  let R := ring s r
  let w := v.toNat % 2 ^ 17
  if !R.enable then s
  else if prodOk w R.hostIdx.toNat R.blockIdx.toNat (ringSize R) then setRing s r { nextFence s R with hostIdx := BitVec.ofNat 17 w }
  else rejectIdx s r
/-- A write of the completion queue's HOST_IDX (R271). -/
def cplWrite (s : State) (r : Nat) (v : BitVec 64) : State :=
  let R := ring s r
  let w := v.toNat % 2 ^ 17
  if !R.enable then s
  else if consOk w R.cplBlockIdx.toNat R.cplHostIdx.toNat (ringSize R) then setRing s r { R with cplHostIdx := BitVec.ofNat 17 w }
  else rejectIdx s r
def execCrDoorbell (r : Nat) (v : BitVec 64) (strobe : BitVec 8) (s : State) : Host.Outcome State Fault Refusal :=
  event (sqAccess s (fun s => if strobe = 0xFF then doorbell s r v else s))
def execCrCplIdxWrite (r : Nat) (v : BitVec 64) (strobe : BitVec 8) (s : State) : Host.Outcome State Fault Refusal :=
  event (sqAccess s (fun s => if strobe = 0xFF then cplWrite s r v else s))
/-- The push is one that R209 accepts for an enabled ring (R272). -/
def crPushOk (R : Ring) (o : Octets) (burst : Bool) : Bool :=
  let pi := bits (ofLe (part o 0 4)) 0 17
  let cnt := oct o 4
  let size := ringSize R
  burst && o.length == 128 && R.enable && bits (ofLe (part o 0 4)) 17 15 == 0 && (part o 5 27).all (· == 0) && decide (1 ≤ cnt) && decide (cnt ≤ 3) &&
  decide (pi < 2 * size) && (pi + 2 * size - cnt) % (2 * size) == R.hostIdx.toNat && prodOk pi R.hostIdx.toNat R.blockIdx.toNat size
def pushRing (s : State) (r : Nat) (o : Octets) (burst : Bool) : State :=
  let R := ring s r
  if crPushOk R o burst then
    let put := (List.range (oct o 4)).foldl (fun t i => tset [] t ((R.hostIdx.toNat + i) % ringSize R) (part o (32 + 32 * i) 32)) R.pushed
    setRing s r { nextFence s R with hostIdx := BitVec.ofNat 17 (bits (ofLe (part o 0 4)) 0 17), pushed := put }
  else raise (setRing s r { R with pushRej := true }) (50 + r) 2
def execCrPush (r : Nat) (bytes : Octets) (burst : Bool) (s : State) : Host.Outcome State Fault Refusal := event (sqAccess s (fun s => pushRing s r bytes burst))
def resumeRing (s : State) (r : Nat) : State := if (ring s r).state = .halted then setRing s r { ring s r with state := .running } else s
def execResume (r : Nat) (s : State) : Host.Outcome State Fault Refusal := event (sqAccess s (fun s => resumeRing s r))

/-! ### Writes by access code (R3, R4, R460, R495) -/
def clear64 (x v : BitVec 64) : BitVec 64 := x &&& ~~~ v
/-- A write of a whole register whose site is open and is no push window. -/
def writeAt (s : State) (a : Nat) (v : BitVec 64) (sec : Bool) : State :=
  let lo := v.extractLsb' 0 32
  if inBlocks a 0x1000 0x100 8 0x30 then
    let r := (a - 0x1000) / 0x100
    let R := ring s r
    match a % 0x100 with
    | 0x00 => cfgWrite s r v sec
    | 0x08 => if R.enable then s else setRing s r { R with base := v.extractLsb' 6 50 }
    | 0x10 => if R.enable then s else setRing s r { R with cplBase := v.extractLsb' 6 50 }
    | 0x18 => doorbell s r v
    | 0x20 => cplWrite s r v
    | _ =>
      let s := setRing s r { R with idxErr := R.idxErr && !v.getLsbD 3, pushRej := R.pushRej && !v.getLsbD 4 }
      if v.getLsbD 8 then resumeRing s r else s
  else if inBlocks a 0x3000 0x20 9 8 then
    let n := (a - 0x3000) / 0x20
    if v.getLsbD 0 then setIir s n { iir s n with valid := false, reported := false } else s
  else if inBlocks a 0x4000 0x20 32 0x18 && a % 0x20 == 0x10 then
    let p := (a - 0x4000) / 0x20
    if v.getLsbD 8 then setLine s p { line s p with tsqOvf := false } else s
  else if a = 0x5008 then { s with ck := { s.ck with done := clear64 s.ck.done v } }
  else if a = 0x5010 then { s with ck := { s.ck with mismatch := clear64 s.ck.mismatch v } }
  else if inBlocks a 0x100000 0x20 64 0x10 then
    let g := (a - 0x100000) / 0x20
    if a % 0x20 = 0 then setGrp s g { grp s g with pend := (grp s g).pend &&& ~~~ lo } else setGrp s g { grp s g with en := lo }
  else if inBlocks a 0x101000 0x20 4 0x18 then
    let t := (a - 0x101000) / 0x20
    if a % 0x20 = 8 then endOfInterrupt t (v.extractLsb' 0 11) 0xFF s
    else if a % 0x20 = 0x10 && v.getLsbD 6 then setTgt s t { tgt s t with eoiErr := false } else s
  else if 0x250000 ≤ a ∧ a < 0x270000 then
    let w := (a - 0x250000) / 8
    (List.range 16).foldl (fun s i => let b := 16 * w + i; setBob s b { bobn s b with crumbs := (bobn s b).crumbs &&& ~~~ (v.extractLsb' (4 * i) 4) }) s
  else if 0x270000 ≤ a ∧ a < 0x278000 then
    let w := (a - 0x270000) / 8
    { s with bob := { s.bob with notify := (List.range 64).foldl (fun t i => if v.getLsbD i then tset false t (64 * w + i) false else t) s.bob.notify } }
  else if 0x278000 ≤ a ∧ a < 0x278200 then
    let w := (a - 0x278000) / 8
    { s with bob := { s.bob with summary := (List.range 64).foldl (fun t i => if v.getLsbD i then tset false t (64 * w + i) false else t) s.bob.summary } }
  else if 0x400000 ≤ a ∧ a < 0x600000 then hostIdxWrite ((a - 0x400000) / 8) v 0xFF s
  else s
/-- The octets of a burst. -/
def beatBytes (l : List RegBeat) : Octets := l.flatMap (fun b => le 8 b.data.toNat)
def fullBurst (l : List RegBeat) : Bool := l.length == 16 && l.all (·.strobe == 0xFF)
/-- The beats act in order, each where its site is open; a beat with fewer than all strobes changes nothing. -/
def writeBeats : State → Nat → List RegBeat → Bool → State
  | s, _, [], _ => s
  | s, a, b :: t, sec => writeBeats (if siteOpen s a && b.strobe == 0xFF then writeAt s a b.data sec else s) (a + 8) t sec
def burstAddrs (a : Nat) (l : List RegBeat) : List Nat := (List.range l.length).map (fun i => a + 8 * i)
/-- The burst keeps to R460: 1 to 16 beats from a multiple of 8 inside one block of 128 bytes, no reserved offset. -/
def burstOk (a : Nat) (l : List RegBeat) : Bool :=
  a % 8 == 0 && decide (1 ≤ l.length) && decide (a % 128 + 8 * l.length ≤ 128) && (burstAddrs a l).all (fun x => siteOf x != .reserved)
/-- `REGISTER_WRITE`. -/
def registerWrite (addr : BitVec 26) (l : List RegBeat) (sec : Bool) (s : State) : State :=
  let a := addr.toNat
  if !edgeOpen s a then setReg s .absent []
  else if !burstOk a l then setReg s .unmapped []
  else match siteOf a with
    | .ringPush r => sqAccess s (fun s => pushRing s r (beatBytes l) (fullBurst l))
    | .bobPush b => push b (beatBytes l) (fullBurst l) s
    | _ =>
      let ok := (burstAddrs a l).all (siteOpen s)
      setReg (writeBeats s a l sec) (if ok then .served else .absent) []
def execRegisterWrite (addr : BitVec 26) (beats : List RegBeat) (sec : Bool) (s : State) : Host.Outcome State Fault Refusal := event (registerWrite addr beats sec s)

end Sys2Proof.Machine
end

