-- ==== Sys2Proof/Machine/StepOps.lean ====
section
/-! DEFINITION. The Spindle's work after an instruction's first step: resumed steps and block tasks (R339 to R346), internal
faults (R347), stalls (R351), and the acknowledgement of a command record (R273, R283, R284, R459). -/
namespace Sys2Proof.Machine

/-- The routine of an OPCODE that takes more than one step. -/
def routine (op : Nat) (reply : FabReply) : JEntry → State → StepRes :=
  match op with
  | 0x00 => bodyNop | 0x01 => bodyFence | 0x02 => bodyWait | 0x03 => bodyEcho | 0x04 => bodyRead
  | 0x10 => bodyPortDefine | 0x11 => bodyPortUp | 0x12 => bodyPortDown | 0x13 => bodyPortSet | 0x14 => bodyPortShed
  | 0x15 => bodyLaneMargin reply.data | 0x16 => bodyPortPly | 0x17 => bodyPortTag
  | 0x20 => bodyBobbinOpen | 0x21 => bodyBobbinClose | 0x22 => bodyBobbinBind | 0x23 => bodyBobbinDrain | 0x24 => bodySkeinSet | 0x25 => bodySpreadSet
  | 0x30 => bodyContractAdmit | 0x31 => bodyContractWithdraw | 0x32 => bodyContractQuery | 0x33 => bodyContractAmend | 0x34 => bodyStreamSet
  | 0x40 => bodyTemplateWrite | 0x41 => bodyRuleWrite | 0x42 => bodyRuleCommit | 0x43 => bodyRuleRead
  | 0x50 => bodyTableInsert | 0x51 => bodyTableDelete | 0x52 => bodyTableLookup | 0x53 => bodyTableFlush | 0x54 => bodyTableRehash
  | 0x55 => bodyTableLearn | 0x56 => bodyTableAge
  | 0x60 => bodyTimeSet | 0x61 => bodyTimeAdjust | 0x62 => bodyTimeRate | 0x63 => bodyTimePps
  | 0x70 => bodyPowerVote | 0x71 => bodyPowerUnvote | 0x72 => bodyPowerSleep | 0x73 => bodyPowerRetain | 0x74 => bodyWakesrc | 0x75 => bodyPowerClock {}
  | 0x80 => bodyCheckSet | 0x81 => bodyCheckRun
  | 0x90 => bodyLedgerRead | 0x91 => bodyLedgerFlush | 0x92 => bodyTallyWrite | 0x93 => bodyTallyRead
  | 0xA0 => bodyStackForm | 0xA1 => bodyStackJoin | 0xA2 => bodyStackElect | 0xA3 => bodyStackLeave
  | 0xB0 => bodySelftest | 0xB1 => bodyLoopback
  | 0xC0 => bodyIrqRoute | 0xC1 => bodyIrqModerate | 0xC2 => bodyIrqWake | 0xC3 => bodyFilterSet
  | 0xF0 => bodySysReset | 0xF1 => bodySysStarter
  | _ => fun _ s => stop sINTERNAL_FAULT (raise s 58 0)
/-- The entry's command with the fabric's answer to what its last step asked for (R339). -/
def answered (reply : FabReply) (j : JEntry) : JEntry :=
  if j.cond = .fabric then { j with cmd := { j.cmd with reads := [reply], writeAck := some reply.error } } else j
/-- A self-test that still runs has done another step: PROGRESS holds the row or element it goes on with (R295, R348). -/
def testStep (reply : FabReply) (j : JEntry) (s : State) : StepRes :=
  .wait s j.cond j.stage (BitVec.ofNat 64 (max (j.progress.toNat / 65536) (ofLe (reply.data.take 2)) * 65536)) j.scratch
/-- The entry waits for a self-test of its domain that has not ended. -/
def inTest (s : State) (j : JEntry) : Bool :=
  match j.cond with
  | .testEnd d => (testOf s d).st == .running && ((testOf s d).result.isNone || j.task)
  | _ => false
/-- The next step of an instruction (R292). -/
def nextStep (reply : FabReply) (j : JEntry) (s : State) : StepRes :=
  let ds := entryNeeds s j
  if needsFailed s ds then stop sPOWER_FAILED (abandon s j)
  else if !needsOn s ds then .wait s (.domains ds) j.stage j.progress j.scratch
  else if inTest s j then testStep reply j s
  else routine j.opcode reply (answered reply j) s
/-- What a step of a block task does: a deferred test goes on, and a T4 routine acts on the state as it stands (R346, R355). -/
def taskStep (reply : FabReply) (j : JEntry) (s : State) : State :=
  if inTest s j then
    let e := { j with step := j.step + 1, progress := BitVec.ofNat 64 (max (j.progress.toNat / 65536) (ofLe (reply.data.take 2)) * 65536), since := s.tm.now, stalled := false }
    noteIir { s with sq := { s.sq with journal := s.sq.journal ++ [e] } } e
  else reapply s

/-! ### Internal faults (R347) -/
/-- The step of entry `j`, no longer in the queue, is discarded. -/
def faultEntry (s : State) (j : JEntry) : State :=
  let s := raise (abandon (cutStep s j) j) 58 0
  if j.task then s else finish s j.opcode j.cmd sINTERNAL_FAULT 0
def dropEntry (s : State) (j : JEntry) : State := { s with sq := { s.sq with journal := s.sq.journal.erase j } }
/-- `SPINDLE_STEP`: the oldest ready entry runs one step, unless it is a ring's turn (R341). `acked` names the entries whose wait outside the
Spindle has been answered, and `reply` is that answer to the entry that runs. `fault` latches an internal fault in the step. -/
def spindleStep (fault : Bool) (acked : BitVec 9) (reply : FabReply) (s : State) : State :=
  if sqRuns s && !ringTurn s then
    match s.sq.journal.find? (entryReady s acked) with
    | none => s
    | some j =>
      let s := dropEntry { s with sq := { s.sq with lastStep := true } } j
      if fault then faultEntry s j
      else if j.task then taskStep reply j s
      else take j (nextStep reply j s)
  else s
def execSpindleStep (fault : Bool) (acked : BitVec 9) (reply : FabReply) (s : State) : Host.Outcome State Fault Refusal := event (spindleStep fault acked reply s)
/-- `BOUNDARY_GAP_FAULT`: what runs is discarded at once. -/
def boundaryGapFault (w : GapWork) (s : State) : State :=
  if sqRuns s then
    let gone := fun (o : Option JEntry) => match o with | some j => faultEntry (dropEntry s j) j | none => s
    match w with
    | .step r => gone (s.sq.journal.find? (fun e => !e.task && e.ring == r))
    | .task => gone (s.sq.journal.find? (·.task))
    | .command op c =>
      if ready s op c && hasRoom (ring s c.ring) c && resetOk s op c then raise (finish (startRing s op c) op c sINTERNAL_FAULT 0) 58 0 else s
  else s
def execBoundaryGapFault (w : GapWork) (s : State) : Host.Outcome State Fault Refusal := event (boundaryGapFault w s)
/-- `STEP_STALLED` of the queue's entry `i`: 1 s on the same condition (R351). -/
def stepStalled (i : Nat) (s : State) : State :=
  match s.sq.journal[i]? with
  | some j =>
    if !entryReady s 0 j && !j.stalled && decide (j.since + 1000000000 ≤ s.tm.now) then
      raise { s with sq := { s.sq with journal := s.sq.journal.set i { j with stalled := true } } } 58 3
    else s
  | none => s
def execStepStalled (i : Nat) (s : State) : Host.Outcome State Fault Refusal := event (stepStalled i s)

/-! ### Records (R273, R277, R283, R284, R459) -/
def nextIdx (R : Ring) (x : BitVec 17) : BitVec 17 := BitVec.ofNat 17 ((x.toNat + 1) % (2 * ringSize R))
/-- Address of the completion slot the ring writes next. -/
def recordAddr (R : Ring) : Nat := 64 * R.cplBase.toNat + 16 * (R.cplBlockIdx.toNat % ringSize R)
/-- The ring past an acknowledged record of a command: its indices, and the end of its linked group. -/
def pastRecord (R : Ring) : Ring :=
  let last := decide (R.left ≤ 1)
  { R with
    record := none, cplBlockIdx := nextIdx R R.cplBlockIdx, blockIdx := nextIdx R R.blockIdx, completed := R.completed + 1, left := R.left - 1
    inGroup := !last, skip := if last then none else R.skip, haltAfter := R.haltAfter && !last
    state := if R.haltAfter && last then .halted else .running }
/-- What follows the acknowledgement of command record `rec`. -/
def afterRecord (s : State) (r : Nat) (rec : CmdRecord) : State :=
  let R := ring s r
  let last := decide (R.left ≤ 1)
  let s := setRing s r (pastRecord R)
  let s := if last && s.sq.owner == some r then { s with sq := { s.sq with owner := none } } else s
  let s := raiseIf (R.haltAfter && last) s (50 + r) 3
  if rec.opcode = 0xF0 ∧ rec.status = sDONE then softReset s
  else if R.stopping && last then disableRing s r
  else setRing s r { ring s r with fenceNeed := fenceSnap s }
/-- `CR_RECORD_ACK`: the fabric answers the record's write. An ERROR halts the ring, and RESUME writes the record again. -/
def crRecordAck (r : Nat) (error : Bool) (s : State) : State :=
  let R := ring s r
  match R.record with
  | none => s
  | some rec =>
    if R.state = .halted then s
    else
      let s := fabWrite s (recordAddr R) (recBytes rec) error
      if error then raise (setRing s r { R with state := .halted }) (50 + r) 3
      else
        let s := raiseIf rec.irq s (50 + r) 0
        if R.iirRecord then
          let s := setRing s r { R with record := none, iirRecord := false, cplBlockIdx := nextIdx R R.cplBlockIdx }
          if R.stopping then disableRing s r else s
        else afterRecord s r rec
def execCrRecordAck (r : Nat) (error : Bool) (s : State) : Host.Outcome State Fault Refusal := event (crRecordAck r error s)

end Sys2Proof.Machine
end

