-- ==== Sys2Proof/Machine/Dispatch.lean ====
section
/-! DEFINITION. The dispatch: one arm per command, each a direct call of its meaning. -/
namespace Sys2Proof.Machine

def exec (i : Instr) (s : State) : Host.Outcome State Fault Refusal :=
  match i with
  | .nop c => Sys2Proof.Machine.execNop c s
  | .fence c => Sys2Proof.Machine.execFence c s
  | .wait c => Sys2Proof.Machine.execWait c s
  | .echo c => Sys2Proof.Machine.execEcho c s
  | .read c => Sys2Proof.Machine.execRead c s
  | .portDefine c => Sys2Proof.Machine.execPortDefine c s
  | .portUndefine c => Sys2Proof.Machine.execPortUndefine c s
  | .portUp c => Sys2Proof.Machine.execPortUp c s
  | .portDown c => Sys2Proof.Machine.execPortDown c s
  | .portSet c => Sys2Proof.Machine.execPortSet c s
  | .portShed c => Sys2Proof.Machine.execPortShed c s
  | .laneMargin c => Sys2Proof.Machine.execLaneMargin c s
  | .portPlyJoin c => Sys2Proof.Machine.execPortPlyJoin c s
  | .portPlySeparate c => Sys2Proof.Machine.execPortPlySeparate c s
  | .portTag c => Sys2Proof.Machine.execPortTag c s
  | .bobbinOpen c => Sys2Proof.Machine.execBobbinOpen c s
  | .bobbinClose c => Sys2Proof.Machine.execBobbinClose c s
  | .bobbinBindSkein c => Sys2Proof.Machine.execBobbinBindSkein c s
  | .bobbinBindContract c => Sys2Proof.Machine.execBobbinBindContract c s
  | .bobbinClearWithdrawn c => Sys2Proof.Machine.execBobbinClearWithdrawn c s
  | .dataWindowDefine c => Sys2Proof.Machine.execDataWindowDefine c s
  | .tenantGrant c => Sys2Proof.Machine.execTenantGrant c s
  | .bobbinDrain c => Sys2Proof.Machine.execBobbinDrain c s
  | .skeinSet c => Sys2Proof.Machine.execSkeinSet c s
  | .spreadGroupSet c => Sys2Proof.Machine.execSpreadGroupSet c s
  | .spreadEntriesWrite c => Sys2Proof.Machine.execSpreadEntriesWrite c s
  | .contractAdmit c => Sys2Proof.Machine.execContractAdmit c s
  | .contractWithdraw c => Sys2Proof.Machine.execContractWithdraw c s
  | .contractQuery c => Sys2Proof.Machine.execContractQuery c s
  | .contractAmend c => Sys2Proof.Machine.execContractAmend c s
  | .fabRateSet c => Sys2Proof.Machine.execFabRateSet c s
  | .streamSet c => Sys2Proof.Machine.execStreamSet c s
  | .templateWrite c => Sys2Proof.Machine.execTemplateWrite c s
  | .ruleWrite c => Sys2Proof.Machine.execRuleWrite c s
  | .ruleCommit c => Sys2Proof.Machine.execRuleCommit c s
  | .ruleRead c => Sys2Proof.Machine.execRuleRead c s
  | .tableInsert c => Sys2Proof.Machine.execTableInsert c s
  | .tableDelete c => Sys2Proof.Machine.execTableDelete c s
  | .tableLookup c => Sys2Proof.Machine.execTableLookup c s
  | .tableFlush c => Sys2Proof.Machine.execTableFlush c s
  | .tableRehash c => Sys2Proof.Machine.execTableRehash c s
  | .tableLearnPort c => Sys2Proof.Machine.execTableLearnPort c s
  | .tableLearnTable c => Sys2Proof.Machine.execTableLearnTable c s
  | .tableAge c => Sys2Proof.Machine.execTableAge c s
  | .timeSet c => Sys2Proof.Machine.execTimeSet c s
  | .timeAdjustStep c => Sys2Proof.Machine.execTimeAdjustStep c s
  | .timeAdjustSlew c => Sys2Proof.Machine.execTimeAdjustSlew c s
  | .timeRate c => Sys2Proof.Machine.execTimeRate c s
  | .ppsOutSet c => Sys2Proof.Machine.execPpsOutSet c s
  | .ppsInSet c => Sys2Proof.Machine.execPpsInSet c s
  | .powerVote c => Sys2Proof.Machine.execPowerVote c s
  | .powerUnvote c => Sys2Proof.Machine.execPowerUnvote c s
  | .powerSleep c => Sys2Proof.Machine.execPowerSleep c s
  | .powerRetain c => Sys2Proof.Machine.execPowerRetain c s
  | .powerWakesrcSet c => Sys2Proof.Machine.execPowerWakesrcSet c s
  | .powerWakesrcQuery c => Sys2Proof.Machine.execPowerWakesrcQuery c s
  | .wakeFrameFilterSet c => Sys2Proof.Machine.execWakeFrameFilterSet c s
  | .powerClock c tog => Sys2Proof.Machine.execPowerClock c tog s
  | .checkSet c => Sys2Proof.Machine.execCheckSet c s
  | .checkRun c => Sys2Proof.Machine.execCheckRun c s
  | .ledgerRead c => Sys2Proof.Machine.execLedgerRead c s
  | .ledgerFlush c => Sys2Proof.Machine.execLedgerFlush c s
  | .ledgerFlushIntervalSet c => Sys2Proof.Machine.execLedgerFlushIntervalSet c s
  | .ledgerClear c => Sys2Proof.Machine.execLedgerClear c s
  | .tallyWrite c => Sys2Proof.Machine.execTallyWrite c s
  | .tallyRead c => Sys2Proof.Machine.execTallyRead c s
  | .stackForm c => Sys2Proof.Machine.execStackForm c s
  | .stackJoin c => Sys2Proof.Machine.execStackJoin c s
  | .stackElect c => Sys2Proof.Machine.execStackElect c s
  | .stackLeave c => Sys2Proof.Machine.execStackLeave c s
  | .selftest c => Sys2Proof.Machine.execSelftest c s
  | .loopback c => Sys2Proof.Machine.execLoopback c s
  | .irqRoute c => Sys2Proof.Machine.execIrqRoute c s
  | .irqModerate c => Sys2Proof.Machine.execIrqModerate c s
  | .irqWake c => Sys2Proof.Machine.execIrqWake c s
  | .filterSet c => Sys2Proof.Machine.execFilterSet c s
  | .sysReset c => Sys2Proof.Machine.execSysReset c s
  | .sysStarter c => Sys2Proof.Machine.execSysStarter c s
  | .hostIdxWrite b v strobe => Sys2Proof.Machine.execHostIdxWrite b v strobe s
  | .push b bytes burst => Sys2Proof.Machine.execPush b bytes burst s
  | .crEnable r v sec => Sys2Proof.Machine.execCrEnable r v sec s
  | .crDisable r v sec => Sys2Proof.Machine.execCrDisable r v sec s
  | .crPrivWrite r priv sec => Sys2Proof.Machine.execCrPrivWrite r priv sec s
  | .crSizeWrite r size => Sys2Proof.Machine.execCrSizeWrite r size s
  | .crDoorbell r v strobe => Sys2Proof.Machine.execCrDoorbell r v strobe s
  | .crCplIdxWrite r v strobe => Sys2Proof.Machine.execCrCplIdxWrite r v strobe s
  | .crPush r bytes burst => Sys2Proof.Machine.execCrPush r bytes burst s
  | .resume r => Sys2Proof.Machine.execResume r s
  | .tsqPop p strobe => Sys2Proof.Machine.execTsqPop p strobe s
  | .tuNowRead strobe => Sys2Proof.Machine.execTuNowRead strobe s
  | .tuPpsCaptureRead strobe => Sys2Proof.Machine.execTuPpsCaptureRead strobe s
  | .claim t strobe => Sys2Proof.Machine.execClaim t strobe s
  | .endOfInterrupt t src strobe => Sys2Proof.Machine.execEndOfInterrupt t src strobe s
  | .registerWrite addr beats sec => Sys2Proof.Machine.execRegisterWrite addr beats sec s
  | .spindleStep fault acked reply => Sys2Proof.Machine.execSpindleStep fault acked reply s
  | .boundaryGapFault w => Sys2Proof.Machine.execBoundaryGapFault w s
  | .t4PendingClear => Sys2Proof.Machine.execT4PendingClear s
  | .stepStalled n => Sys2Proof.Machine.execStepStalled n s
  | .crRecordAck r error => Sys2Proof.Machine.execCrRecordAck r error s
  | .waitConditionMet r => Sys2Proof.Machine.execWaitConditionMet r s
  | .waitTimeout r => Sys2Proof.Machine.execWaitTimeout r s
  | .descriptorFetchDone b reply => Sys2Proof.Machine.execDescriptorFetchDone b reply s
  | .poolClaimGranted k => Sys2Proof.Machine.execPoolClaimGranted k s
  | .frameStaged fid data => Sys2Proof.Machine.execFrameStaged fid data s
  | .calendarSlotBoundary p => Sys2Proof.Machine.execCalendarSlotBoundary p s
  | .whorlDecision p => Sys2Proof.Machine.execWhorlDecision p s
  | .preemptionCut p sent => Sys2Proof.Machine.execPreemptionCut p sent s
  | .txTimeStampPoint p stamp => Sys2Proof.Machine.execTxTimeStampPoint p stamp s
  | .transmissionEnd p => Sys2Proof.Machine.execTransmissionEnd p s
  | .completionRecordAck cb slot error => Sys2Proof.Machine.execCompletionRecordAck cb slot error s
  | .frameReceived p frame stamp descs asm => Sys2Proof.Machine.execFrameReceived p frame stamp descs asm s
  | .recirculationPass k descs => Sys2Proof.Machine.execRecirculationPass k descs s
  | .rxBufferWriteAck rid error octets => Sys2Proof.Machine.execRxBufferWriteAck rid error octets s
  | .csiRxTransfer k => Sys2Proof.Machine.execCsiRxTransfer k s
  | .csiTxFrame k md data => Sys2Proof.Machine.execCsiTxFrame k md data s
  | .learnPortWrite => Sys2Proof.Machine.execLearnPortWrite s
  | .ageSweepVisit => Sys2Proof.Machine.execAgeSweepVisit s
  | .holdTick => Sys2Proof.Machine.execHoldTick s
  | .holdSweepVisit => Sys2Proof.Machine.execHoldSweepVisit s
  | .redundancySweepVisit stream => Sys2Proof.Machine.execRedundancySweepVisit stream s
  | .pauseFrameReceived p quanta => Sys2Proof.Machine.execPauseFrameReceived p quanta s
  | .pfcFrameReceived p enable quanta => Sys2Proof.Machine.execPfcFrameReceived p enable quanta s
  | .classHoldStart p cl => Sys2Proof.Machine.execClassHoldStart p cl s
  | .holdTimerExpiry p cl => Sys2Proof.Machine.execHoldTimerExpiry p cl s
  | .xoffDelayExpiry p cl => Sys2Proof.Machine.execXoffDelayExpiry p cl s
  | .xoffRepeat p cl => Sys2Proof.Machine.execXoffRepeat p cl s
  | .linkUp p => Sys2Proof.Machine.execLinkUp p s
  | .linkDown p => Sys2Proof.Machine.execLinkDown p s
  | .trainingDone lane => Sys2Proof.Machine.execTrainingDone lane s
  | .trainingFailed lane => Sys2Proof.Machine.execTrainingFailed lane s
  | .trainingRetry p => Sys2Proof.Machine.execTrainingRetry p s
  | .verifyTimerExpiry p => Sys2Proof.Machine.execVerifyTimerExpiry p s
  | .respondMpacketReceived p => Sys2Proof.Machine.execRespondMpacketReceived p s
  | .verifyMpacketReceived p => Sys2Proof.Machine.execVerifyMpacketReceived p s
  | .fecSecond p cwCorrected cwBad symbols blockErrs => Sys2Proof.Machine.execFecSecond p cwCorrected cwBad symbols blockErrs s
  | .lpiEntry p => Sys2Proof.Machine.execLpiEntry p s
  | .lpiWakeEnd p => Sys2Proof.Machine.execLpiWakeEnd p s
  | .shedWindowEnd p => Sys2Proof.Machine.execShedWindowEnd p s
  | .offerTimer p => Sys2Proof.Machine.execOfferTimer p s
  | .offer p m => Sys2Proof.Machine.execOffer p m s
  | .request p m => Sys2Proof.Machine.execRequest p m s
  | .accept p m => Sys2Proof.Machine.execAccept p m s
  | .decline p m => Sys2Proof.Machine.execDecline p m s
  | .ready p m => Sys2Proof.Machine.execReady p m s
  | .done p m => Sys2Proof.Machine.execDone p m s
  | .abort p m => Sys2Proof.Machine.execAbort p m s
  | .shedProposeTimeout p => Sys2Proof.Machine.execShedProposeTimeout p s
  | .shedAgreeTimeout p => Sys2Proof.Machine.execShedAgreeTimeout p s
  | .shedAligned p => Sys2Proof.Machine.execShedAligned p s
  | .shedSwitchTimeout p => Sys2Proof.Machine.execShedSwitchTimeout p s
  | .realignmentBoundary => Sys2Proof.Machine.execRealignmentBoundary s
  | .slewDone => Sys2Proof.Machine.execSlewDone s
  | .refLoss => Sys2Proof.Machine.execRefLoss s
  | .refOk => Sys2Proof.Machine.execRefOk s
  | .ppsOutRise => Sys2Proof.Machine.execPpsOutRise s
  | .ppsOutFall => Sys2Proof.Machine.execPpsOutFall s
  | .ppsInCapture => Sys2Proof.Machine.execPpsInCapture s
  | .starterTrim => Sys2Proof.Machine.execStarterTrim s
  | .gateOpen g => Sys2Proof.Machine.execGateOpen g s
  | .evtInAccepted n level => Sys2Proof.Machine.execEvtInAccepted n level s
  | .sleepVoteGranted t => Sys2Proof.Machine.execSleepVoteGranted t s
  | .sleepEntry => Sys2Proof.Machine.execSleepEntry s
  | .quiesceDone d => Sys2Proof.Machine.execQuiesceDone d s
  | .saveAndCheckDone => Sys2Proof.Machine.execSaveAndCheckDone s
  | .regulatorRequestFall d => Sys2Proof.Machine.execRegulatorRequestFall d s
  | .pmPgoodFall d => Sys2Proof.Machine.execPmPgoodFall d s
  | .repowerHoldoffEnd d => Sys2Proof.Machine.execRepowerHoldoffEnd d s
  | .pmPgoodRise d => Sys2Proof.Machine.execPmPgoodRise d s
  | .domainOn d toggling => Sys2Proof.Machine.execDomainOn d toggling s
  | .wakeTimeout d => Sys2Proof.Machine.execWakeTimeout d s
  | .wakeRetry d => Sys2Proof.Machine.execWakeRetry d s
  | .retentionCheckDone d crc toggling => Sys2Proof.Machine.execRetentionCheckDone d crc toggling s
  | .pgoodLoss d => Sys2Proof.Machine.execPgoodLoss d s
  | .clockSwitch d => Sys2Proof.Machine.execClockSwitch d s
  | .wakeEvent kind num frame => Sys2Proof.Machine.execWakeEvent kind num frame s
  | .linkActivity lane => Sys2Proof.Machine.execLinkActivity lane s
  | .wakeTimerExpiry => Sys2Proof.Machine.execWakeTimerExpiry s
  | .powerFailNotice => Sys2Proof.Machine.execPowerFailNotice s
  | .blockReset => Sys2Proof.Machine.execBlockReset s
  | .blockResetRelease => Sys2Proof.Machine.execBlockResetRelease s
  | .coldReset => Sys2Proof.Machine.execColdReset s
  | .coldResetRelease => Sys2Proof.Machine.execColdResetRelease s
  | .softResetExit => Sys2Proof.Machine.execSoftResetExit s
  | .romCheckDone => Sys2Proof.Machine.execRomCheckDone s
  | .checkRunEnd ch reply => Sys2Proof.Machine.execCheckRunEnd ch reply s
  | .selftestEnd d outcome => Sys2Proof.Machine.execSelftestEnd d outcome s
  | .ledgerIntervalFlush => Sys2Proof.Machine.execLedgerIntervalFlush s
  | .ledgerFlushDone ok => Sys2Proof.Machine.execLedgerFlushDone ok s
  | .ledgerSecondSample temp fec => Sys2Proof.Machine.execLedgerSecondSample temp fec s
  | .heartbeatTick => Sys2Proof.Machine.execHeartbeatTick s
  | .heartbeat l h reach => Sys2Proof.Machine.execHeartbeat l h reach s
  | .reachStale inst => Sys2Proof.Machine.execReachStale inst s
  | .linkHeartbeatLoss l => Sys2Proof.Machine.execLinkHeartbeatLoss l s
  | .timeFrameTick => Sys2Proof.Machine.execTimeFrameTick s
  | .time l h origin stamp quality => Sys2Proof.Machine.execTime l h origin stamp quality s
  | .upstreamTimeout => Sys2Proof.Machine.execUpstreamTimeout s
  | .delayReqTick => Sys2Proof.Machine.execDelayReqTick s
  | .delayReq l h seq stamp => Sys2Proof.Machine.execDelayReq l h seq stamp s
  | .delayResp l h seq t2 t3 stamp => Sys2Proof.Machine.execDelayResp l h seq t2 t3 stamp s
  | .joinReq l h => Sys2Proof.Machine.execJoinReq l h s
  | .joinAck l h inst result members => Sys2Proof.Machine.execJoinAck l h inst result members s
  | .admitReq l h m => Sys2Proof.Machine.execAdmitReq l h m s
  | .admitResp l h m => Sys2Proof.Machine.execAdmitResp l h m s
  | .release l h m => Sys2Proof.Machine.execRelease l h m s
  | .admitPendingTimeout tag requester => Sys2Proof.Machine.execAdmitPendingTimeout tag requester s
  | .leave l h => Sys2Proof.Machine.execLeave l h s
  | .mergeWindowEnd => Sys2Proof.Machine.execMergeWindowEnd s
  | .suspensionEnd ct => Sys2Proof.Machine.execSuspensionEnd ct s
  | .partnerAbsent => Sys2Proof.Machine.execPartnerAbsent s
  | .pcsAlignmentLock p => Sys2Proof.Machine.execPcsAlignmentLock p s
  | .pcsAlignmentLoss p => Sys2Proof.Machine.execPcsAlignmentLoss p s
  | .powerFailNoticeWithdrawn => Sys2Proof.Machine.execPowerFailNoticeWithdrawn s
  | .pmAckFall d => Sys2Proof.Machine.execPmAckFall d s
  | .frameDataReadError fid => Sys2Proof.Machine.execFrameDataReadError fid s
  | .partnerLpiEntry p time8 => Sys2Proof.Machine.execPartnerLpiEntry p time8 s
  | .stackResponseTimeout r => Sys2Proof.Machine.execStackResponseTimeout r s

end Sys2Proof.Machine
end

