-- ==== Sys2Proof/Machine/Idle.lean ====
section
/-! DEFINITION. What the passing of a nanosecond does (log 3): the clocks, step 4 of an AO cycle (R356), the round-robin lists (R263),
the powered time of the domains (R414), deferred loopbacks (R332) and the entries of the block's own tasks (R346). -/
namespace Sys2Proof.Machine

/-- Some source is presentable on `WAKE_OUT`'s terms (R364). -/
def wakeShown (s : State) : Bool :=
  (List.range 4).any (fun t => (tgt s t).sleepGranted &&
    (s.ic.group.map Prod.fst).any (fun g => (grp s g).wake && (List.range 32).any (fun n => presentable s t g n)))
/-- The outputs T0 to T4 that the state calls for. -/
def outputs (s : State) : BitVec 5 :=
  BitVec.ofNat 5 ((List.range 4).foldl (fun a t => a + b2n (topSource s t).isSome * 2 ^ t) 0 + b2n (topT4 s).isSome * 16)
/-- Step 4 of an AO cycle, and the AO edge that follows: gates close, T4's bits are seen, outputs take their values, and the Spindle claims
(R355 to R357, R364). -/
def aoStep (s : State) : State :=
  let s := closeGates s
  let s := { s with ic := { s.ic with group := tmap {} (fun _ G => { G with t4Seen := G.t4 }) s.ic.group } }
  claimT4 { s with ic := { s.ic with out := outputs s, wakeOut := wakeShown s } }
/-- Every port's list of R263 follows the skeins that became active or ceased to be. -/
def drrAll (s : State) : State := (definedPorts s).foldl drrSync s
/-- One nanosecond passes with no command waiting. A loopback that waits for its port takes effect, and the block's own tasks begin and end,
with the nanosecond after the command that lets them (log 98). -/
def idle (s : State) : State :=
  let t := tick s
  let t := powerTicks (drrAll (if t.tm.now % 40 = 0 then aoStep t else t))
  settle (ownTasks (t.tst.loopDefer.foldl evalLoop t))

end Sys2Proof.Machine
end

