-- ==== Sys2Proof/Machine/Step.lean ====
section
/-! DEFINITION. The step: the command at the front of the queue, or a nanosecond where none waits (log 3). -/
namespace Sys2Proof.Machine

/-- The block takes the command at the front of its queue and runs it with the queue's rest; with none waiting, one
nanosecond passes: the clocks that run advance (R69, R486) and every domain that is ON gains powered time (R414). -/
def step (s : State) : Host.Outcome State Fault Refusal :=
  match s.pending with
  | i :: rest => exec i { s with pending := rest }
  | [] => .next (idle s)

/-- No row of the table gives bits, so no word spells a command: the state is unchanged. -/
def State.withFetchWord (s : State) (nbits w : Nat) : State :=
  match decodeTableWord nbits w with
  | some i => { s with pending := i :: s.pending }
  | none => s

end Sys2Proof.Machine
end

