-- ==== Sys2Proof/Machine/Pins.lean ====
section
/-! DEFINITION. The block's output pins as functions of the state (18): what each group shows in its edge state, what a clamp holds, and how
a frame or a fabric transfer is cut into beats (R450, R451, R453, R458, R463 to R465, R470, R471, R474). -/
namespace Sys2Proof.Machine

/-- Domain `d`'s outputs hold their isolation values: it does not read ON, or the edge state is not LIVE (R451, R474). -/
def clamped (s : State) (d : Nat) : Bool := !(s.pw.edge == .live && isOn s d)
/-- An output of domain `d` with isolation value `iso`. -/
def clampTo {α : Type} (s : State) (d : Nat) (iso v : α) : α := if clamped s d then iso else v

/-! ### Lanes (R463, R464) -/
/-- The enabled port that lane `n` carries at its present width. -/
def laneOwner (s : State) (n : Nat) : Option Nat :=
  (definedPorts s).find? (fun p => isEnabled s p && decide (p ≤ n) && decide (n < p + widthNow s p))
/-- `PMA_TX_EI_n`: electrical idle. -/
def txElectricalIdle (s : State) (n : Nat) : Bool := clampTo s (dLG (n / 4)) true (laneOwner s n).isNone
/-- `PMA_TRN_CMD_n`: 0 idle, 1 train, 2 margin. -/
def trainCommand (s : State) (n : Nat) : Nat :=
  let margin := match tget none s.tst.margin n with | some _ => true | none => false
  let training := fun p => (line s p).training == .running && decide (p ≤ n) && decide (n < p + lanesNeeded s p) && !tget false (line s p).laneDone n
  clampTo s (dLG (n / 4)) 0 (if margin then 2 else if (definedPorts s).any training then 1 else 0)

/-! ### Core stream (R453, R454) -/
/-- A segment of a core-stream beat. -/
structure CsiSegment where
  data : Octets
  sop : Bool
  eop : Bool
  mty : Nat
  md : BitVec 256
deriving DecidableEq, Repr
/-- The segments of 64 octets of a frame; the metadata stands in the one with EOP. -/
def csiSegments (frame : Octets) (md : BitVec 256) : List CsiSegment :=
  let n := ceilDiv frame.length 64
  (List.range n).map (fun i =>
    let d := part frame (64 * i) 64
    let last := i + 1 == n
    { data := d, sop := i == 0, eop := last, mty := if last then 64 - d.length else 0, md := if last then md else 0 })
/-- Two segments a beat. -/
def csiPairs : List CsiSegment → List (List CsiSegment)
  | [] => []
  | [a] => [[a]]
  | a :: b :: t => [a, b] :: csiPairs t
def csiBeats (frame : Octets) (md : BitVec 256) : List (List CsiSegment) := csiPairs (csiSegments frame md)
/-- A receive frame waits on interface `k`: `CSI_RX_VALID_k`. -/
def csiRxValid (s : State) (k : Nat) : Bool := clampTo s (dMS k) false (!(tget [] s.rx.csi k).isEmpty)
/-- `CSI_TX_READY_k`: low while the claim of the interface's last frame waits (R457). -/
def csiTxReady (s : State) (k : Nat) : Bool :=
  clampTo s (dMS k) false (!s.tx.frames.any (fun f => f.origin == .csi k && f.stage == .claiming))
/-- `CSI_UP_k`. -/
def csiUp (s : State) (k : Nat) : Bool := clampTo s (dMS k) false true

/-! ### Fabric (R458) -/
/-- A command of the fabric DMA master. -/
structure FabCommand where
  write : Bool
  addr : Nat
  beats : Nat
  contracted : Bool
deriving DecidableEq, Repr
/-- The commands that cover `len` octets from `addr`: each begins at a multiple of 128 and ends at the next multiple of 4,096 at the latest,
so that none has more than 32 beats. -/
def fabSplit (write contracted : Bool) : Nat → Nat → Nat → List FabCommand
  | 0, _, _ => []
  | n + 1, addr, len =>
    if len = 0 then []
    else
      let room := min len (4096 - addr % 4096)
      let first := addr / 128
      { write := write, addr := 128 * first, beats := (addr + room - 1) / 128 + 1 - first, contracted := contracted } :: fabSplit write contracted n (addr + room) (len - room)
def fabCommands (write contracted : Bool) (addr len : Nat) : List FabCommand := fabSplit write contracted (len / 4096 + 2) addr len
/-- `FAB_CMD_VALID` of the transfers for bobbins and frames. -/
def fabCmdValid (s : State) : Bool := clampTo s dHD false (!(fabOrder s).isEmpty)
/-- `FAB_RSP_READY`, 1 also while it is clamped. -/
def fabRspReady (_ : State) : Bool := true

/-! ### Power domains (R465) -/
def pmReq (s : State) (d : Nat) : Bool := (dom s d).req
def pmRet (s : State) (d : Nat) : Bool := (dom s d).ret

/-! ### Interrupts, sideband and stack bus (R101, R364, R468, R470, R471) -/
/-- `IRQ_OUT[4:0]`, low but in edge state LIVE (R474). -/
def irqPins (s : State) : List Bool := ((List.range 5).map (irqOut s)).map (fun b => s.pw.edge == .live && b)
/-- `FAULT_N` is driven low. -/
def faultLow (s : State) : Bool := s.pw.edge == .held || anyFailed s
/-- `WAKE_OUT` (R364), which step 4 decides (R356). -/
def wakeOut (s : State) : Bool := s.pw.edge == .live && s.ic.wakeOut
/-- `PPS_OUT`. -/
def ppsPin (s : State) : Bool := clampTo s dTU false s.tu.ppsOut
/-- The test access port reaches scan, memory test and the ROM read path; else only BYPASS and IDCODE (R468, tally 11). -/
def tapReaches (s : State) : Bool := tally s 11 % 2 == 0
/-- `SB_STATE`: the code of STATE in `STK_STATUS`. -/
def sbState (s : State) : Nat := clampTo s dSL 0 (stkNum s.stk.st)
/-- `SB_PRESENT`. -/
def sbPresent (s : State) : Bool := isOn s dSL && s.pw.edge == .live
/-- A stack frame of 64 octets on the frame channel: four beats of 16, SOP on the first and EOP on the last. -/
def sbBeats (frame : Octets) : List (Octets × Bool × Bool) := (List.range 4).map (fun i => (part frame (16 * i) 16, i == 0, i == 3))

end Sys2Proof.Machine
end

