-- ==== Sys2Proof/Safety.lean ====
section
/-! DEFINITION. What a safe step is, and the words that statements about a step are made of: the parts of the state that it leaves
as they were, the completion record it writes, an instruction that its ring can start. -/
namespace Sys2Proof.Machine

/-- The step answers a next state. -/
def Goes (o : Host.Outcome State Fault Refusal) : Prop := ∃ t, o = .next t
/-- The step at `s` goes on and keeps the canonical form of the memory. -/
def SafeStep (s : State) : Prop := ∃ t, step s = .next t ∧ Memory.wf t.mem

/-! ### Frames -/
/-- The parts of the state that a frame speaks of. -/
inductive Part where
  | clock | timeUnit | starter | rings | ports | counters | streams | parsers | spreads | stations | bobbins | skeins | contracts
  | txPath | rxPath | checks | ledger | stack | regPort | memory | spindle | irq | power | margins | loops | tests
deriving DecidableEq, Repr
/-- The part is as it was. Some parts follow the rest of the state at the end of every command and are compared without what follows: the
claim of T4 (R340), the domains and those that leave a sleep entry (R370, R374), and deferred tests that begin (R491). -/
def Part.same : Part → State → State → Prop
  | .clock, s, t => t.tm = s.tm
  | .timeUnit, s, t => t.tu = s.tu
  | .starter, s, t => t.st0 = s.st0
  | .rings, s, t => t.cr = s.cr
  | .ports, s, t => t.port = s.port
  | .counters, s, t => t.ctr = s.ctr
  | .streams, s, t => t.str = s.str
  | .parsers, s, t => t.pc = s.pc
  | .spreads, s, t => t.spr = s.spr
  | .stations, s, t => t.stn = s.stn
  | .bobbins, s, t => t.bob = s.bob
  | .skeins, s, t => t.skn = s.skn
  | .contracts, s, t => t.ct = s.ct
  | .txPath, s, t => t.tx = s.tx
  | .rxPath, s, t => t.rx = s.rx
  | .checks, s, t => t.ck = s.ck
  | .ledger, s, t => t.ld = s.ld
  | .stack, s, t => t.stk = s.stk
  | .regPort, s, t => t.reg = s.reg
  | .memory, s, t => ∀ a, memGet t.mem a = memGet s.mem a
  | .spindle, s, t => t.sq.released = s.sq.released ∧ t.sq.heldState = s.sq.heldState ∧ t.sq.journal = s.sq.journal
      ∧ t.sq.inSoftReset = s.sq.inSoftReset ∧ t.sq.adm = s.sq.adm ∧ t.sq.admRun = s.sq.admRun ∧ t.sq.iir = s.sq.iir
  | .irq, s, t => t.ic = s.ic
  | .power, s, t => t.pw = { s.pw with dom := t.pw.dom, sleepSet := t.pw.sleepSet } ∧ (s.pw.sleep ≠ .entry → t.pw.sleepSet = s.pw.sleepSet)
  | .margins, s, t => t.tst.margin = s.tst.margin
  | .loops, s, t => t.tst.loop = s.tst.loop ∧ t.tst.loopDefer = s.tst.loopDefer
  | .tests, s, t => ∀ d, (testOf s d).st ≠ .deferred → testOf t d = testOf s d
/-- Every part but those named is as it was, and so is the queue of commands. -/
def Untouched (but : List Part) (s t : State) : Prop := t.pending = s.pending ∧ ∀ p, p ∉ but → p.same s t

/-- The parts that a raise may change: it sets pending bits, and may wake the block (R352, R364). -/
def loud : List Part := [.irq, .power, .checks]

/-! ### Instructions -/
/-- The state when the Spindle begins the command's first step, and the journal entry it would have. -/
abbrev started (s : State) (op : Nat) (c : Cmd) : State := startRing s op c
abbrev entryOf (s : State) (op : Nat) (c : Cmd) : JEntry := jentry (startRing s op c) op c
/-- The command at the head of its ring can start, is not skipped, passes every check of R276 and of R289, and finds its object
free and the domains it needs ON (R270 to R274, R280, R282, R283, R292); no raise waits to wake the block. -/
structure Starts (s : State) (op : Nat) (use : Cmd → List (Nat × Nat × Nat)) (c : Cmd) : Prop where
  own : c.opcode = none
  head : ready s op c = true
  room : hasRoom (ring s c.ring) c = true
  others : resetOk s op c = true
  unskipped : (ring s c.ring).skip = none
  short : c.group ≤ 64
  fetched : c.fetchErr = false
  checked : preCheck s op c = none
  reserved : clean c (use c) = true
  free : objectHeld s op c = false
  alive : needsFailed s (opNeeds s op c) = false
  domains : needsOn s (opNeeds s op c) = true
  quiet : s.ic.wakeHit = none
/-- The ring's registers that no start and no completion changes (R269). -/
def RingRegs (R R' : Ring) : Prop :=
  R'.enable = R.enable ∧ R'.priv = R.priv ∧ R'.sizeLog2 = R.sizeLog2 ∧ R'.base = R.base ∧ R'.cplBase = R.cplBase
  ∧ R'.hostIdx = R.hostIdx ∧ R'.blockIdx = R.blockIdx ∧ R'.cplHostIdx = R.cplHostIdx ∧ R'.cplBlockIdx = R.cplBlockIdx
  ∧ R'.grant = R.grant ∧ R'.completed = R.completed
/-- Every ring but `r` is as it was, and `r` keeps its registers. -/
def RingFrame (s t : State) (r : Nat) : Prop := RingRegs (ring s r) (ring t r) ∧ ∀ q, q ≠ r → ring t q = ring s q
/-- The completion record that the ring of `c` has written and that waits for its acknowledgement (R273, R277). -/
def Recorded (s t : State) (op : Nat) (c : Cmd) (st : BitVec 8) (res : BitVec 64) : Prop :=
  ∃ R, (ring t c.ring).record = some R ∧ R.status = st ∧ R.opcode = BitVec.ofNat 8 op ∧ R.tag = c.tag
    ∧ R.index = (ring s c.ring).blockIdx ∧ R.irq = irqFlag c ∧ R.result = res
/-- The command completes in this step with a status and a RESULT; of the rest of the block only the parts named may change. -/
def Completes (s t : State) (op : Nat) (c : Cmd) (st : BitVec 8) (res : BitVec 64) (but : List Part) : Prop :=
  Recorded s t op c st res ∧ RingFrame s t c.ring ∧ Untouched (.rings :: but) s t
/-- The command commits a step and waits in the journal for a condition (R339, R342, R346); of the rest of the block only the parts
named may change. -/
def Waits (s t : State) (op : Nat) (c : Cmd) (cond : Cond) (but : List Part) : Prop :=
  (ring t c.ring).held = true ∧ (ring t c.ring).record = none ∧ RingFrame s t c.ring ∧ Untouched (.rings :: .spindle :: but) s t
  ∧ ∃ e, t.sq.journal = s.sq.journal ++ [e] ∧ e.ring = c.ring ∧ e.task = false ∧ e.opcode = op ∧ e.cmd = c ∧ e.cond = cond ∧ e.step = 1
    ∧ e.stalled = false ∧ e.since = s.tm.now ∧ (iir t c.ring).opcode = BitVec.ofNat 8 op ∧ (iir t c.ring).tag = c.tag ∧ (iir t c.ring).step = 1
/-- The Spindle takes entry `j` of an instruction, whose domains are ON, as its next unit of work (R280, R339, R341). -/
structure Takes (s : State) (acked : BitVec 9) (j : JEntry) : Prop where
  runs : sqRuns s = true
  turn : ringTurn s = false
  oldest : s.sq.journal.find? (entryReady s acked) = some j
  instruction : j.task = false
  alive : needsFailed s (entryNeeds s j) = false
  untested : inTest s j = false
  quiet : s.ic.wakeHit = none
/-- Entry `j` has left the queue, and its record waits for its acknowledgement; of the rest of the block only the parts named may change. -/
def Ends (s t : State) (j : JEntry) (st : BitVec 8) (res : BitVec 64) (but : List Part) : Prop :=
  t.sq.journal = s.sq.journal.erase j ∧ RingFrame s t j.cmd.ring ∧ Untouched (.rings :: .spindle :: but) s t
  ∧ ∃ R, (ring t j.cmd.ring).record = some R ∧ R.status = st ∧ R.opcode = BitVec.ofNat 8 j.opcode ∧ R.tag = j.cmd.tag ∧ R.result = res
/-- Source (g, n) is pending. -/
def Pends (t : State) (g n : Nat) : Prop := (grp t g).pend.toNat.testBit n = true

/-! ### The instructions of R295 -/
/-- An instruction of R295: its OPCODE, the operand fields it has, the command as the row's own OBJ and sub-id make it, and the row. -/
structure InstrRow where
  op : Nat
  use : Cmd → List (Nat × Nat × Nat)
  cmd : Cmd
  instr : Instr
/-- Every instruction of R295, given command `c`; a row that is one form of an instruction names that form's OBJ or sub-id. -/
def instructions (c : Cmd) (tog : Clocks) : List InstrRow := [
  ⟨0x00, useNone, c, .nop c⟩, ⟨0x01, useFence, c, .fence c⟩, ⟨0x02, useWait, c, .wait c⟩, ⟨0x03, useEcho, c, .echo c⟩, ⟨0x04, useRead, c, .read c⟩,
  ⟨0x10, usePortDefine, c, .portDefine c⟩, ⟨0x10, usePortDefine, { c with sub := 1 }, .portUndefine c⟩, ⟨0x11, useNone, c, .portUp c⟩,
  ⟨0x12, useNone, c, .portDown c⟩, ⟨0x13, usePortSet, c, .portSet c⟩, ⟨0x14, usePortShed, c, .portShed c⟩, ⟨0x15, useLaneMargin, c, .laneMargin c⟩,
  ⟨0x16, usePortPly, c, .portPlyJoin c⟩, ⟨0x16, usePortPly, (withoutJoin c), .portPlySeparate c⟩, ⟨0x17, usePortTag, c, .portTag c⟩,
  ⟨0x20, useBobbinOpen, c, .bobbinOpen c⟩, ⟨0x21, useNone, c, .bobbinClose c⟩, ⟨0x22, useBobbinBind, c, .bobbinBindSkein c⟩,
  ⟨0x22, useBobbinBind, { c with sub := 2 }, .bobbinBindContract c⟩, ⟨0x22, useBobbinBind, { c with sub := 3 }, .bobbinClearWithdrawn c⟩,
  ⟨0x22, useBobbinBind, (asObj c 0 0 1), .dataWindowDefine c⟩, ⟨0x22, useBobbinBind, (asObj c 0x10 (objNum c) 0), .tenantGrant c⟩,
  ⟨0x23, useBobbinDrain, c, .bobbinDrain c⟩, ⟨0x24, useSkeinSet, c, .skeinSet c⟩, ⟨0x25, useSpreadSet, c, .spreadGroupSet c⟩,
  ⟨0x25, useSpreadSet, { c with sub := 1 }, .spreadEntriesWrite c⟩, ⟨0x30, useContract, c, .contractAdmit c⟩, ⟨0x31, useNone, c, .contractWithdraw c⟩,
  ⟨0x32, useContract, c, .contractQuery c⟩, ⟨0x33, useContractAmend, c, .contractAmend c⟩, ⟨0x33, useContractAmend, (asObj c 0 0 1), .fabRateSet c⟩,
  ⟨0x34, useStreamSet, c, .streamSet c⟩, ⟨0x40, useTemplateWrite, c, .templateWrite c⟩, ⟨0x41, useRuleWrite, c, .ruleWrite c⟩,
  ⟨0x42, useRuleCommit, c, .ruleCommit c⟩, ⟨0x43, useRuleRead, c, .ruleRead c⟩, ⟨0x50, useTableInsert, c, .tableInsert c⟩,
  ⟨0x51, useKey, c, .tableDelete c⟩, ⟨0x52, useKey, c, .tableLookup c⟩, ⟨0x53, useTableFlush, c, .tableFlush c⟩, ⟨0x54, useTableRehash, c, .tableRehash c⟩,
  ⟨0x55, useTableLearn, (if objKind c = 1 then c else asObj c 1 (objNum c) 0), .tableLearnPort c⟩,
  ⟨0x55, useTableLearn, (asObj c 0x0A 0 0), .tableLearnTable c⟩, ⟨0x56, useTableAge, c, .tableAge c⟩, ⟨0x60, useTimeSet, c, .timeSet c⟩,
  ⟨0x61, useTimeAdjust, c, .timeAdjustStep c⟩, ⟨0x61, useTimeAdjust, { c with sub := 1 }, .timeAdjustSlew c⟩, ⟨0x62, useTimeRate, c, .timeRate c⟩,
  ⟨0x63, useTimePps, c, .ppsOutSet c⟩, ⟨0x63, useTimePps, { c with sub := 1 }, .ppsInSet c⟩, ⟨0x70, useNone, c, .powerVote c⟩,
  ⟨0x71, useNone, c, .powerUnvote c⟩, ⟨0x72, usePowerSleep, c, .powerSleep c⟩, ⟨0x73, usePowerRetain, c, .powerRetain c⟩,
  ⟨0x74, useWakesrc, c, .powerWakesrcSet c⟩, ⟨0x74, useWakesrc, (asObj c 0 0 1), .powerWakesrcQuery c⟩,
  ⟨0x74, useWakesrc, (asObj c 1 (objNum c) 0), .wakeFrameFilterSet c⟩, ⟨0x75, useClock, c, .powerClock c tog⟩, ⟨0x80, useCheckSet, c, .checkSet c⟩,
  ⟨0x81, useCheckRun, c, .checkRun c⟩, ⟨0x90, useLedgerRead, c, .ledgerRead c⟩, ⟨0x91, useLedgerFlush, c, .ledgerFlush c⟩,
  ⟨0x91, useLedgerFlush, { c with sub := 1 }, .ledgerFlushIntervalSet c⟩, ⟨0x91, useLedgerFlush, { c with sub := 2 }, .ledgerClear c⟩,
  ⟨0x92, useTallyWrite, c, .tallyWrite c⟩, ⟨0x93, useNone, c, .tallyRead c⟩, ⟨0xA0, useStackForm, c, .stackForm c⟩, ⟨0xA1, useStackJoin, c, .stackJoin c⟩,
  ⟨0xA2, useNone, c, .stackElect c⟩, ⟨0xA3, useNone, c, .stackLeave c⟩, ⟨0xB0, useTest, c, .selftest c⟩, ⟨0xB1, useTest, c, .loopback c⟩,
  ⟨0xC0, useIrqRoute, c, .irqRoute c⟩, ⟨0xC1, useIrqModerate, c, .irqModerate c⟩, ⟨0xC2, useIrqWake, c, .irqWake c⟩, ⟨0xC3, useFilterSet, c, .filterSet c⟩,
  ⟨0xF0, useByte8, c, .sysReset c⟩, ⟨0xF1, useNone, c, .sysStarter c⟩]

/-! ### Rows that are no instruction -/
/-- The row answers a next state of which `P` holds; of the rest of the block only the parts named may change. -/
def Answers (o : Host.Outcome State Fault Refusal) (s : State) (but : List Part) (P : State → Prop) : Prop :=
  ∃ t, o = .next t ∧ P t ∧ Untouched but s t
/-- The line of port `p` is now `L`; the other lines and every definition and setting of a port are as they were. -/
def LineIs (s t : State) (p : Nat) (L : Line) : Prop :=
  line t p = L ∧ (∀ q, q ≠ p → line t q = line s q) ∧ t.port = { s.port with line := t.port.line }
/-- What the end of a frame may change besides `loud`: cells, contracts, completion records, bobbins, counters. -/
def flight : List Part := [.ports, .counters, .contracts, .bobbins, .txPath, .ledger] ++ loud

/-! ### Domains and their votes (R370) -/
/-- Domain `d` has followed its votes: one that has votes, and that the block may request, is not at rest in OFF or RETAINED; one that is ON
quiesces when it has none, and does not when it has one. -/
def FollowsVotes (s : State) (d : Nat) : Prop :=
  let D := dom s d
  ((D.st = .off ∨ D.st = .retained) → D.phase = .none → D.retrying = false → D.ack = false → powered s d = true → votes s d = 0) ∧
  (D.st = .on → (D.phase = .none → 0 < votes s d) ∧ (D.phase = .quiesce ∨ D.phase = .save → votes s d = 0))
/-- What every step leaves: no raise waits to wake the block, and every switched domain has followed its votes. -/
def Settled (s : State) : Prop := s.ic.wakeHit = none ∧ ∀ d, d < 56 → FollowsVotes s d
/-- Every open gate has a pending enabled source (R357). -/
def GatesOk (s : State) : Prop := ∀ g, (grp s g).gateOpen = true → (grp s g).pend &&& (grp s g).en ≠ 0

end Sys2Proof.Machine
end

