-- ==== Sys2Proof/Certificates/Slice0/Obligations.lean ====
section
/-! DEFINITION. The statements for the provers. `Starts`, `Completes`, `Waits`, `Recorded`, `RingFrame`, `Untouched` and `Pends` are
defined in Sys2Proof/Safety.lean. -/
open Sys2Proof Sys2Proof.Machine

/-- With command i at the front of the queue a step is the execution of i on the state with the rest of the queue. With an empty queue one nanosecond passes: real time advances by one and no command waits; what may change is the clocks, the time unit, the starter counter, the round-robin lists of the skeins, the Ledger's powered times, the block's own journal entries, the gates, and what a deferred loopback that takes effect changes. Off an AO edge, with no loopback deferred and no raise waiting to wake the block, ports, interrupts and power are as they were; on an AO edge every gate left open has a pending enabled source. That an idle step is a nanosecond is the model's choice (log 3). -/
def Obligations.StepRunsTheFrontCommand : Prop :=
  ∀ s : State,
    (∀ (i : Instr) (rest : List Instr), step { s with pending := i :: rest } = exec i { s with pending := rest }) ∧
    (s.pending = [] → ∃ t, step s = .next t ∧ t.tm.now = s.tm.now + 1 ∧ t.pending = []
      ∧ Untouched ([.clock, .timeUnit, .starter, .skeins, .ledger, .spindle, .ports, .loops] ++ loud) s t
      ∧ ((s.tm.now + 1) % 40 ≠ 0 → s.tst.loopDefer = [] → s.ic.wakeHit = none → Untouched [.clock, .timeUnit, .starter, .skeins, .ledger, .spindle] s t)
      ∧ ((s.tm.now + 1) % 40 = 0 → GatesOk t))

/-- From every state, a step answers a next state, never a fault or a refusal. In that state no raise waits to wake the block, and for each of the 56 switched domains: one at rest in OFF or RETAINED that the block may request has no vote; one that is ON begins to quiesce when it has none, and is not quiescing or saving when it has one (R370). -/
def Obligations.EveryStepFollowsTheVotes : Prop :=
  ∀ s : State, ∃ t, step s = .next t ∧ Settled t

/-- In the state after reset every domain follows its votes, every gate is closed, no raise waits, and the memory lists nothing and is canonical. Every ring is disabled with indices 0, SIZE_LOG2 3, and PRIV 0 for CR0 and 1 for the others (R269). No port is defined or enabled, no bobbin is open, no contract is admitted, no source is pending or enabled, no command waits. That the state after reset is that of a cold reset in force is the model's reading (log 21). -/
def Obligations.ResetState : Prop :=
  Settled State.reset ∧ GatesOk State.reset ∧ Memory.wf State.reset.mem ∧ State.reset.mem = []
  ∧ (∀ r, (ring State.reset r).enable = false ∧ (ring State.reset r).state = .disabled ∧ (ring State.reset r).sizeLog2 = 3 ∧ (ring State.reset r).hostIdx = 0
      ∧ (ring State.reset r).blockIdx = 0 ∧ (ring State.reset r).cplHostIdx = 0 ∧ (ring State.reset r).cplBlockIdx = 0 ∧ (ring State.reset r).priv = if r = 0 then 0 else 1)
  ∧ (∀ p, pdef State.reset p = none ∧ isEnabled State.reset p = false) ∧ (∀ b, (bobn State.reset b).st = .closed) ∧ (∀ n, (contr State.reset n).st = .free)
  ∧ (∀ g, (grp State.reset g).pend = 0 ∧ (grp State.reset g).en = 0 ∧ (grp State.reset g).holdoff = 0 ∧ (grp State.reset g).gateOpen = false)
  ∧ State.reset.pw.edge = .reset ∧ State.reset.pw.resetKind = .cold ∧ State.reset.pending = []

/-- A command at the head of a ring that can start it, of any instruction, completes without any effect with the status of the first check that fails: a linked group above 64, BAD_OPERAND; a group skipped after a failure, the status that the skip gives; a failed fetch, BAD_OPERAND; the five checks of R276, BAD_OPCODE, BAD_OPERAND, PRIVILEGE, BAD_OPERAND or NO_OBJECT; a reserved bit, BAD_OPERAND; an object held by another instruction in progress, BUSY (TALLY.WRITE, which raises an event with it, apart); a FAILED domain that it needs, POWER_FAILED. Where a domain that it needs is not ON, it waits for it and has changed nothing. An instruction that passes them all has the effect that its own statement gives: a NOP, FENCE or ECHO writes a completion record with status DONE, its OPCODE, TAG and index, and RESULT 0, or operand bytes 8 to 15 for ECHO. An OPCODE that is no instruction of R295 completes BAD_OPCODE. Other rings, the memory and every other part of the block are unchanged. -/
def Obligations.EveryInstructionIsChecked : Prop :=
  ∀ (s : State) (c : Cmd),
    (Starts s 0x00 useNone c → ∃ t, exec (.nop c) s = .next t ∧ Completes s t 0x00 c 0x00 0 []) ∧
    (Starts s 0x01 useFence c → ∃ t, exec (.fence c) s = .next t ∧ Completes s t 0x01 c 0x00 0 []) ∧
    (Starts s 0x03 useEcho c → ∃ t, exec (.echo c) s = .next t ∧ Completes s t 0x03 c 0x00 (c.ops.setWidth 64) []) ∧
    (∀ o, c.opcode = some o → listed o.toNat = false → ready s o.toNat c = true → hasRoom (ring s c.ring) c = true →
      (ring s c.ring).skip = none → c.group ≤ 64 → c.fetchErr = false → s.ic.wakeHit = none →
      ∃ t, exec (.nop c) s = .next t ∧ Completes s t o.toNat c 0x10 0 []) ∧
    (∀ tog : Clocks, ∀ e ∈ instructions c tog,
      let op := e.op
      let k := e.cmd
      let ends := fun (st : BitVec 8) => ∃ t, exec e.instr s = .next t ∧ Completes s t op k st 0 []
      k.opcode = none → ready s op k = true → hasRoom (ring s k.ring) k = true → resetOk s op k = true → s.ic.wakeHit = none →
      ((ring s k.ring).left = 0 → 64 < k.group → ends 0x11) ∧
      (∀ x, k.group ≤ 64 → (ring s k.ring).skip = some x → ends x) ∧
      (k.group ≤ 64 → (ring s k.ring).skip = none → k.fetchErr = true → ends 0x11) ∧
      (k.group ≤ 64 → (ring s k.ring).skip = none → k.fetchErr = false →
        (∀ x, preCheck s op k = some x → ends x) ∧
        (preCheck s op k = none → clean k (e.use k) = false → ends 0x11) ∧
        (preCheck s op k = none → clean k (e.use k) = true →
          (objectHeld s op k = true → op ≠ 0x92 → ends 0x14) ∧
          (objectHeld s op k = false → needsFailed s (opNeeds s op k) = true → ends 0x40) ∧
          (objectHeld s op k = false → needsFailed s (opNeeds s op k) = false → needsOn s (opNeeds s op k) = false →
            ∃ t, exec e.instr s = .next t ∧ Waits s t op k (.domains (opNeeds s op k)) []))))

/-- A WAIT whose operands are valid leaves its ring in WAITING with the command kept and no record written. When its condition holds, the ring is RUNNING again with a record of status DONE, or BUSY where the bobbin that the condition names is neither OPEN nor DRAINING any more; when TIMEOUT microseconds have passed, with DONE_NOTE, or BUSY where TIMEOUT_FAILS is set. The RESULT is T64 of the present time. Other rings and the rest of the block are unchanged. -/
def Obligations.WaitHoldsAndEnds : Prop :=
  ∀ (s : State),
    (∀ c, Starts s 0x02 useWait c → waitBad (started s 0x02 c) c = false →
      ∃ t w, exec (.wait c) s = .next t ∧ (ring t c.ring).state = .waiting ∧ (ring t c.ring).record = none
        ∧ (ring t c.ring).wait = some w ∧ w.cmd = c ∧ w.startNow = s.tm.now ∧ w.startCount = s.tm.count
        ∧ RingFrame s t c.ring ∧ Untouched [.rings] s t) ∧
    (∀ r w, s.ic.wakeHit = none → (ring s r).wait = some w → (fld w.cmd 8 0 8 = 2 → waitBobOk s w.cmd = true) → waitMet s w = true →
      ∃ t, exec (.waitConditionMet r) s = .next t ∧ (ring t r).state = .running ∧ (ring t r).wait = none
        ∧ Completes s t 0x02 { w.cmd with ring := r } 0x00 (BitVec.ofNat 64 (t64 (nowT s))) []) ∧
    (∀ r w, s.ic.wakeHit = none → (ring s r).wait = some w → fld w.cmd 8 0 8 = 2 → waitBobOk s w.cmd = false →
      ∃ t, exec (.waitConditionMet r) s = .next t ∧ (ring t r).state = .running ∧ (ring t r).wait = none
        ∧ Completes s t 0x02 { w.cmd with ring := r } 0x14 (BitVec.ofNat 64 (t64 (nowT s))) []) ∧
    (∀ r w, s.ic.wakeHit = none → (ring s r).wait = some w → fld w.cmd 12 0 32 ≠ 0 → w.startNow + fld w.cmd 12 0 32 * 1000 ≤ s.tm.now →
      ∃ t, exec (.waitTimeout r) s = .next t ∧ (ring t r).state = .running ∧ (ring t r).wait = none
        ∧ Completes s t 0x02 { w.cmd with ring := r } (if fbit w.cmd 9 0 then 0x14 else 0x02) (BitVec.ofNat 64 (t64 (nowT s))) [])

/-- While the Spindle runs and no ring command is next, SPINDLE_STEP takes the oldest ready entry out of the queue. An instruction's entry runs its routine with the fabric's answer; where a domain that it needs is FAILED it completes POWER_FAILED; while the test it waits for still runs it goes back as the last entry, with its progress. A routine of the block's own goes back likewise while its test runs, and else leaves the queue, with every contract suspended whose stack mask holds an unreachable instance. The last step of PORT.PLY leaves P24 plied or undefined and completes DONE. A fault in a step completes the instruction INTERNAL_FAULT and raises its event; so does a gap between boundaries, in a later step, in a block task (without a record), or in a first step. An entry that waits for 1 s raises the stall event once. The acknowledgement of a command record puts its 16 bytes at the completion slot, clears it, moves both indices on (the completion index alone for the record of R349) and raises the completion event where the record asks; a ring to be disabled at its next boundary is disabled then; with ERROR the ring halts with its event and keeps the record. The record of SYS.RESET begins the soft reset. -/
def Obligations.StepsFaultsAndRecords : Prop :=
  ∀ s : State, s.ic.wakeHit = none →
    (∀ j acked reply, sqRuns s → ringTurn s = false → s.sq.journal.find? (entryReady s acked) = some j →
      (j.task = false → needsFailed s (entryNeeds s j) = false → inTest s j = false →
        exec (.spindleStep false acked reply) s = .next (settle (take j (routine j.opcode reply (answered reply j) (dropEntry { s with sq := { s.sq with lastStep := true } } j))))) ∧
      (j.task = false → needsFailed s (entryNeeds s j) = true → (j.opcode = 0xB0 → objNum j.cmd ≠ dSQ) →
        ∃ t, exec (.spindleStep false acked reply) s = .next t ∧ t.sq.journal = s.sq.journal.erase j
          ∧ ∃ R, (ring t j.cmd.ring).record = some R ∧ R.status = 0x40 ∧ R.tag = j.cmd.tag) ∧
      (needsFailed s (entryNeeds s j) = false → inTest s j = true →
        Answers (exec (.spindleStep false acked reply) s) s [.rings, .spindle] fun t => ∃ e, t.sq.journal = s.sq.journal.erase j ++ [e] ∧ e.cmd = j.cmd ∧ e.cond = j.cond
          ∧ e.step = j.step + 1 ∧ e.stage = j.stage ∧ e.since = s.tm.now ∧ e.progress = BitVec.ofNat 64 (max (j.progress.toNat / 65536) (ofLe (reply.data.take 2)) * 65536)) ∧
      (j.task = true → inTest s j = false →
        ∃ t, exec (.spindleStep false acked reply) s = .next t ∧ t.sq.journal = s.sq.journal.erase j ∧ t.pw.failDue = [] ∧ t.cr = s.cr ∧ t.mem = s.mem
          ∧ ∀ n, (contr t n).st ≠ .free → (contr t n).img.stackMask ≠ 0 → maskReach t (contr t n).img.stackMask = false → (contr t n).suspended = true) ∧
      (j.opcode = 0x16 → j.task = false → j.stage = 2 → j.cond = .ready → needsFailed s (entryNeeds s j) = false →
        Answers (exec (.spindleStep false acked reply) s) s [.rings, .spindle, .ports, .counters] fun t =>
          t.sq.journal = s.sq.journal.erase j ∧ (∃ R, (ring t j.cmd.ring).record = some R ∧ R.status = 0x00)
          ∧ pdef t 24 = if plyJoin j.cmd then some { mode := .l224, width := 8, fec := .rs544, mac := fmac j.cmd 16, plied := true } else none) ∧
      ((j.opcode = 0xB0 → objNum j.cmd ≠ dSQ) →
        ∃ t, exec (.spindleStep true acked reply) s = .next t ∧ t.sq.journal = s.sq.journal.erase j ∧ Pends t 58 0
          ∧ (j.task = false → ∃ R, (ring t j.cmd.ring).record = some R ∧ R.status = 0xFF ∧ R.tag = j.cmd.tag))) ∧
    (∀ r j, sqRuns s → s.sq.journal.find? (fun e => !e.task && e.ring == r) = some j → (j.opcode = 0xB0 → objNum j.cmd ≠ dSQ) →
      ∃ t, exec (.boundaryGapFault (.step r)) s = .next t ∧ t.sq.journal = s.sq.journal.erase j ∧ Pends t 58 0
        ∧ ∃ R, (ring t j.cmd.ring).record = some R ∧ R.status = 0xFF ∧ R.tag = j.cmd.tag) ∧
    (∀ j, sqRuns s → s.sq.journal.find? (·.task) = some j → (j.opcode = 0xB0 → objNum j.cmd ≠ dSQ) →
      ∃ t, exec (.boundaryGapFault .task) s = .next t ∧ t.sq.journal = s.sq.journal.erase j ∧ Pends t 58 0 ∧ t.cr = s.cr
        ∧ (j.opcode = 0x1000 → Untouched (.spindle :: loud) s t)) ∧
    (∀ op c, sqRuns s → ready s op c → hasRoom (ring s c.ring) c → resetOk s op c →
      Answers (exec (.boundaryGapFault (.command op c)) s) s (.rings :: loud) fun t => Recorded s t op c 0xFF 0 ∧ Pends t 58 0) ∧
    (∀ i j, s.sq.journal[i]? = some j → entryReady s 0 j = false → j.stalled = false → j.since + 1000000000 ≤ s.tm.now →
      Answers (exec (.stepStalled i) s) s (.spindle :: loud) fun t => t.sq.journal = s.sq.journal.set i { j with stalled := true } ∧ Pends t 58 3) ∧
    (∀ r rc, (ring s r).record = some rc → (ring s r).state ≠ .halted →
      let a := recordAddr (ring s r)
      (Answers (exec (.crRecordAck r true) s) s ([.clock, .memory, .rings] ++ loud) fun t => (ring t r).state = .halted ∧ (ring t r).record = some rc
        ∧ RingRegs (ring s r) (ring t r) ∧ (∀ q, q ≠ r → ring t q = ring s q) ∧ (∀ x, x < a ∨ a + 16 ≤ x → memGet t.mem x = memGet s.mem x) ∧ (r < 8 → Pends t (50 + r) 3)) ∧
      ((ring s r).iirRecord = false → ((ring s r).stopping = false ∨ 1 < (ring s r).left) → ¬ (rc.opcode = 0xF0 ∧ rc.status = 0x00) →
        Answers (exec (.crRecordAck r false) s) s ([.memory, .rings] ++ loud) fun t => (ring t r).record = none
          ∧ (ring t r).blockIdx = nextIdx (ring s r) (ring s r).blockIdx ∧ (ring t r).cplBlockIdx = nextIdx (ring s r) (ring s r).cplBlockIdx
          ∧ (ring t r).completed = (ring s r).completed + 1 ∧ (ring t r).left = (ring s r).left - 1
          ∧ (ring t r).state = (if (ring s r).haltAfter = true ∧ (ring s r).left ≤ 1 then .halted else .running)
          ∧ ((ring s r).haltAfter = true → (ring s r).left ≤ 1 → r < 8 → Pends t (50 + r) 3)
          ∧ (∀ q, q ≠ r → ring t q = ring s q) ∧ (∀ i, i < 16 → memGet t.mem (a + i) = ((recBytes rc)[i]?).getD 0)
          ∧ (∀ x, x < a ∨ a + 16 ≤ x → memGet t.mem x = memGet s.mem x) ∧ (rc.irq → r < 8 → Pends t (50 + r) 0)) ∧
      ((ring s r).iirRecord = false → (ring s r).stopping = true → (ring s r).left ≤ 1 → ¬ (rc.opcode = 0xF0 ∧ rc.status = 0x00) →
        Answers (exec (.crRecordAck r false) s) s ([.memory, .rings] ++ loud) fun t => (ring t r).record = none ∧ (ring t r).enable = false ∧ (ring t r).state = .disabled
          ∧ (∀ q, q ≠ r → ring t q = ring s q) ∧ (∀ i, i < 16 → memGet t.mem (a + i) = ((recBytes rc)[i]?).getD 0)
          ∧ (∀ x, x < a ∨ a + 16 ≤ x → memGet t.mem x = memGet s.mem x) ∧ (rc.irq → r < 8 → Pends t (50 + r) 0)) ∧
      ((ring s r).iirRecord = true → (ring s r).stopping = false →
        Answers (exec (.crRecordAck r false) s) s ([.memory, .rings] ++ loud) fun t => (ring t r).record = none ∧ (ring t r).blockIdx = (ring s r).blockIdx
          ∧ (ring t r).cplBlockIdx = nextIdx (ring s r) (ring s r).cplBlockIdx ∧ (ring t r).completed = (ring s r).completed
          ∧ (∀ q, q ≠ r → ring t q = ring s q) ∧ (∀ i, i < 16 → memGet t.mem (a + i) = ((recBytes rc)[i]?).getD 0)
          ∧ (∀ x, x < a ∨ a + 16 ≤ x → memGet t.mem x = memGet s.mem x)) ∧
      ((ring s r).iirRecord = false → rc.opcode = 0xF0 → rc.status = 0x00 →
        ∃ t, exec (.crRecordAck r false) s = .next t ∧ t.sq.released = false ∧ t.sq.inSoftReset ∧ t.pw.softHold ∧ t.pw.softAt = s.tm.now
          ∧ (∀ i, i < 16 → memGet t.mem (a + i) = ((recBytes rc)[i]?).getD 0)))

/-- PORT.DEFINE of a legal combination that clashes with no other port and, in starter service, is one of those it allows, on a port that is not defined or that nothing names, completes DONE and leaves the port defined with the given mode, width, FEC and address, its settings and its line at their defaults (the second register of the stamp queue keeps what it last latched). With sub-id 1 it leaves the port undefined, or completes DONE_NOTE where it was so already. Every other port keeps its definition, settings and line, and only ports and their redundancy counters change. -/
def Obligations.PortDefineAndUndefine : Prop :=
  ∀ (s : State) (c : Cmd),
    (∀ m f, Starts s 0x10 usePortDefine c → c.sub = 0 → modeOf (fld c 8 0 8) = some m → fecOf (fld c 10 0 8) = some f →
      defineBad s (objNum c) { mode := m, width := fld c 9 0 8, fec := f, mac := fmac c 16 } = false →
      (inStarter s = true → starterDefineBad (objNum c) { mode := m, width := fld c 9 0 8, fec := f, mac := fmac c 16 } = false) →
      ((pdef s (objNum c)).isSome → portNamed s (objNum c) = false) → plyHolds s (objNum c) = false →
      ∃ t, exec (.portDefine c) s = .next t ∧ Completes s t 0x10 c 0x00 0 [.ports, .counters]
        ∧ pdef t (objNum c) = some { mode := m, width := fld c 9 0 8, fec := f, mac := fmac c 16 }
        ∧ pset t (objNum c) = { rx := { custom := 0x9100 } } ∧ line t (objNum c) = { tsqHi := (line s (objNum c)).tsqHi }
        ∧ ∀ q, q ≠ objNum c → pdef t q = pdef s q ∧ pset t q = pset s q ∧ line t q = line s q) ∧
    (Starts s 0x10 usePortDefine { c with sub := 1 } → (pdef s (objNum c)).isSome → portNamed s (objNum c) = false → plyHolds s (objNum c) = false →
      ∃ t, exec (.portUndefine c) s = .next t ∧ Completes s t 0x10 { c with sub := 1 } 0x00 0 [.ports, .counters]
        ∧ pdef t (objNum c) = none ∧ pset t (objNum c) = {} ∧ line t (objNum c) = { tsqHi := (line s (objNum c)).tsqHi }
        ∧ ∀ q, q ≠ objNum c → pdef t q = pdef s q ∧ pset t q = pset s q ∧ line t q = line s q) ∧
    (Starts s 0x10 usePortDefine { c with sub := 1 } → pdef s (objNum c) = none →
      ∃ t, exec (.portUndefine c) s = .next t ∧ Completes s t 0x10 { c with sub := 1 } 0x02 0 [])

/-- PORT.UP of a defined port that is not enabled enables it and fills its pause budget; in starter service the port becomes a starter port. With every domain of its votes ON it completes DONE with training running; with one not ON and none FAILED it waits for those domains; with one FAILED it completes POWER_FAILED and the port is not enabled. PORT.DOWN of an enabled port takes the link down; once no accepted frame of the port is left it completes DONE with the port not enabled, and until then it waits. On a port whose link is already down only the ports change. Either instruction completes DONE_NOTE where the port is already so. -/
def Obligations.PortUpAndDown : Prop :=
  ∀ (s : State) (c : Cmd),
    let p := objNum c
    (Starts s 0x11 useNone c → (pdef s p).isSome → isEnabled s p = false → inStarter s = false → (∀ d ∈ portVoteSet s p, isOn s d = true) →
      ∃ t, exec (.portUp c) s = .next t ∧ Completes s t 0x11 c 0x00 0 [.ports] ∧ t.port.enabled = setBitAt s.port.enabled p true
        ∧ (line t p).training = .running ∧ (line t p).bucket = (pset s p).line.pbDepth) ∧
    (let u := { s with port := { s.port with enabled := setBitAt s.port.enabled p true, starterPort := setBitAt s.port.starterPort p true } }
     Starts s 0x11 useNone c → (pdef s p).isSome → isEnabled s p = false → inStarter s = true → (∀ d ∈ portVoteSet u p, isOn s d = true) →
      ∃ t, exec (.portUp c) s = .next t ∧ Completes s t 0x11 c 0x00 0 [.ports] ∧ t.port.enabled = u.port.enabled ∧ t.port.starterPort = u.port.starterPort
        ∧ (line t p).training = .running ∧ (line t p).bucket = (pset s p).line.pbDepth) ∧
    (Starts s 0x11 useNone c → (pdef s p).isSome → isEnabled s p = false → inStarter s = false →
      (∀ d ∈ portVoteSet s p, isFailed s d = false) → (∃ d ∈ portVoteSet s p, isOn s d = false) →
      ∃ t, exec (.portUp c) s = .next t ∧ Waits s t 0x11 c (.domains (portVoteSet s p)) [.ports]
        ∧ t.port.enabled = setBitAt s.port.enabled p true) ∧
    (Starts s 0x11 useNone c → (pdef s p).isSome → isEnabled s p = false → inStarter s = false → (∃ d ∈ portVoteSet s p, isFailed s d = true) →
      ∃ t, exec (.portUp c) s = .next t ∧ Completes s t 0x11 c 0x40 0 [.ports] ∧ isEnabled t p = false) ∧
    (Starts s 0x11 useNone c → (pdef s p).isSome → isEnabled s p = true → ∃ t, exec (.portUp c) s = .next t ∧ Completes s t 0x11 c 0x02 0 []) ∧
    (Starts s 0x12 useNone c → (pdef s p).isSome → isEnabled s p = true → (line s p).up = false → portDrained s p = true →
      ∃ t, exec (.portDown c) s = .next t ∧ Completes s t 0x12 c 0x00 0 [.ports]
        ∧ t.port.enabled = setBitAt s.port.enabled p false ∧ (line t p).training = .idle) ∧
    (let u := portGoesDown { started s 0x12 c with port := { s.port with downing := setBitAt s.port.downing p true } } p kLATE_LINK_DOWN
     Starts s 0x12 useNone c → (pdef s p).isSome → isEnabled s p = true →
      (portDrained u p = true →
        ∃ t, exec (.portDown c) s = .next t ∧ Recorded s t 0x12 c 0x00 0 ∧ RingFrame s t c.ring ∧ Untouched (.rings :: flight) s t
          ∧ isEnabled t p = false ∧ (line t p).up = false ∧ (line t p).tx = .idle) ∧
      (portDrained u p = false →
        ∃ t, exec (.portDown c) s = .next t ∧ Waits s t 0x12 c (.portDrained p) flight ∧ t.port.downing = setBitAt s.port.downing p true
          ∧ isEnabled t p = true ∧ (line t p).up = false)) ∧
    (Starts s 0x12 useNone c → (pdef s p).isSome → isEnabled s p = false → ∃ t, exec (.portDown c) s = .next t ∧ Completes s t 0x12 c 0x02 0 [])

/-- On a defined port, PORT.SET with sub-id 1 stores the PFC map, the generation mask and the XOFF delay; with sub-id 2 the parse profile, default class and PCP map; with sub-ids 4 to 7 every field of the one-step template. With sub-id 0 and legal values that leave the terms of the admission test as they were, it stores the line settings and completes DONE. Where a term changes, the admission test runs: in one step it completes DONE with the line settings stored where it passes, and REFUSED_ADMISSION with the settings as they were where it fails; a longer test waits between its steps and ends the same way; while another test runs it waits for that. RESULT is the test's. Other ports keep their settings, and the state outside the ports, their histograms and the kept result of a test is unchanged. -/
def Obligations.PortSetGroups : Prop :=
  (∀ (s : State) (c : Cmd),
    let p := objNum c
    let N := lineSetOf c
    let u := setPset s p { pset s p with line := N }
    let r := admTest u none
    Starts s 0x13 usePortSet c → (pdef s p).isSome →
    (c.sub = 1 → fld c 16 0 32 ≤ 1000000 → ∃ t, exec (.portSet c) s = .next t ∧ Completes s t 0x13 c 0x00 0 [.ports]
      ∧ pset t p = { pset s p with pfcMap := c.ops.setWidth 48, genMask := BitVec.ofNat 16 (fld c 14 0 16), xoffDelay := fld c 16 0 32 }
      ∧ (∀ q, q ≠ p → pset t q = pset s q) ∧ ∀ q, line t q = line s q) ∧
    (c.sub = 2 → ∃ t, exec (.portSet c) s = .next t ∧ Completes s t 0x13 c 0x00 0 [.ports]
      ∧ pset t p = { pset s p with parse := fld c 8 0 3, defClass := fld c 9 0 4, pcpMap := BitVec.ofNat 32 (fld c 10 0 32) }
      ∧ (∀ q, q ≠ p → pset t q = pset s q) ∧ ∀ q, line t q = line s q) ∧
    (4 ≤ c.sub.toNat → c.sub.toNat ≤ 7 → fld c 12 0 8 ≤ 212 → fld c 9 0 8 ≤ 254 → fld c 13 0 8 ≤ 254 →
      ∃ t, exec (.portSet c) s = .next t ∧ Completes s t 0x13 c 0x00 0 [.ports]
      ∧ tget {} (pset t p).oneStep (c.sub.toNat - 4) = { enable := fbit c 8 0, residence := fbit c 8 1, matchOffset := fld c 9 0 8, matchValue := BitVec.ofNat 16 (fld c 10 0 16), ptpOffset := fld c 12 0 8, udpCsum := fld c 13 0 8, typeMask := BitVec.ofNat 16 (fld c 14 0 16) }
      ∧ (∀ k, k ≠ c.sub.toNat - 4 → tget {} (pset t p).oneStep k = tget {} (pset s p).oneStep k)
      ∧ (∀ q, q ≠ p → pset t q = pset s q) ∧ ∀ q, line t q = line s q) ∧
    (c.sub = 0 → lineBad s p c N = false → (N.lpiEn = true → isStackPort s p = false) → (inStarter s = true → N.preempt = .off ∧ N.lpiEn = false ∧ N.xo = false) →
      (lineTerms N = lineTerms (pset s p).line →
        ∃ t, exec (.portSet c) s = .next t ∧ Completes s t 0x13 c 0x00 0 [.ports, .counters]
          ∧ pset t p = { pset s p with line := N } ∧ ∀ q, q ≠ p → pset t q = pset s q ∧ line t q = line s q) ∧
      (lineTerms N ≠ lineTerms (pset s p).line → admBusy s = true → ∃ t, exec (.portSet c) s = .next t ∧ Waits s t 0x13 c .admFree []) ∧
      (lineTerms N ≠ lineTerms (pset s p).line → admBusy s = false → testSteps u none = 1 → r.reason = 0 →
        ∃ t, exec (.portSet c) s = .next t ∧ Completes s t 0x13 c 0x00 (admResult r) [.ports, .counters, .spindle]
          ∧ pset t p = { pset s p with line := N } ∧ ∀ q, q ≠ p → pset t q = pset s q ∧ line t q = line s q) ∧
      (lineTerms N ≠ lineTerms (pset s p).line → admBusy s = false → testSteps u none = 1 → r.reason ≠ 0 →
        ∃ t, exec (.portSet c) s = .next t ∧ Completes s t 0x13 c 0x21 (admResult r) [.spindle]) ∧
      (lineTerms N ≠ lineTerms (pset s p).line → admBusy s = false → testSteps u none ≠ 1 →
        ∃ t, exec (.portSet c) s = .next t ∧ Waits s t 0x13 c .ready [] ∧ t.sq.admRun = some { ring := c.ring, result := r, left := testSteps u none - 1 }))) ∧
  (∀ (s : State) (j : JEntry) (x : AdmRun) acked reply,
    let p := objNum j.cmd
    Takes s acked j → j.opcode = 0x13 → j.cmd.sub = 0 → j.cond = .ready → j.stage = 8 → (pdef s p).isSome → s.sq.admRun = some x → x.left ≤ 1 →
    (x.result.reason = 0 →
      ∃ t, exec (.spindleStep false acked reply) s = .next t ∧ Ends s t j 0x00 (admResult x.result) [.ports, .counters] ∧ t.sq.admRun = none
        ∧ pset t p = { pset s p with line := lineSetOf j.cmd } ∧ ∀ q, q ≠ p → pset t q = pset s q ∧ line t q = line s q) ∧
    (x.result.reason ≠ 0 →
      ∃ t, exec (.spindleStep false acked reply) s = .next t ∧ Ends s t j 0x21 (admResult x.result) [] ∧ t.sq.admRun = none))

/-- PORT.SHED with MODE AUTO and HOLD, LOW and GROW not zero, with MODE FIXED and WIDTH 2, 4 or 8, or with MODE OFF, on a port that can shed, completes DONE and stores the policy where the port sheds before and after it or neither before nor after it, or where the admission test with the policy passes in one step; where that test fails it completes REFUSED_ADMISSION and changes no port. A longer test waits between its steps, and then ends the same way; while another runs it waits for that. The other settings of the port and every other port are unchanged. -/
def Obligations.PortShedPolicy : Prop :=
  (∀ (s : State) (c : Cmd), Starts s 0x14 usePortShed c → (pdef s (objNum c)).isSome → shedAble s (objNum c) = true → fld c 8 0 8 ≤ 2 →
    (fld c 8 0 8 ≠ 0 → inStarter s = false ∧ isStackPort s (objNum c) = false) →
    (fld c 8 0 8 = 1 → fld c 10 0 16 ≠ 0 ∧ fld c 12 0 8 ≠ 0 ∧ fld c 13 0 8 ≠ 0) →
    (fld c 8 0 8 = 2 → fld c 9 0 8 = 2 ∨ fld c 9 0 8 = 4 ∨ fld c 9 0 8 = 8) →
    let P := (pset s (objNum c)).shed
    let N : PortSet := { pset s (objNum c) with shed := shedPolicyOf P c }
    let u := setPset s (objNum c) N
    ((P.mode = 0 ↔ fld c 8 0 8 = 0) → ∃ t, exec (.portShed c) s = .next t ∧ Completes s t 0x14 c 0x00 0 [.ports]
      ∧ pset t (objNum c) = N ∧ ∀ q, q ≠ objNum c → pset t q = pset s q ∧ line t q = line s q) ∧
    (¬(P.mode = 0 ↔ fld c 8 0 8 = 0) → admBusy s = true → ∃ t, exec (.portShed c) s = .next t ∧ Waits s t 0x14 c .admFree []) ∧
    (¬(P.mode = 0 ↔ fld c 8 0 8 = 0) → admBusy s = false → testSteps u none = 1 → (admTest u none).reason = 0 →
      ∃ t, exec (.portShed c) s = .next t ∧ Completes s t 0x14 c 0x00 (admResult (admTest u none)) [.ports, .spindle]
      ∧ pset t (objNum c) = N ∧ ∀ q, q ≠ objNum c → pset t q = pset s q ∧ line t q = line s q) ∧
    (¬(P.mode = 0 ↔ fld c 8 0 8 = 0) → admBusy s = false → testSteps u none = 1 → (admTest u none).reason ≠ 0 →
      ∃ t, exec (.portShed c) s = .next t ∧ Completes s t 0x14 c 0x21 (admResult (admTest u none)) [.spindle]) ∧
    (¬(P.mode = 0 ↔ fld c 8 0 8 = 0) → admBusy s = false → testSteps u none ≠ 1 →
      ∃ t, exec (.portShed c) s = .next t ∧ Waits s t 0x14 c .ready [] ∧ t.sq.admRun = some { ring := c.ring, result := admTest u none, left := testSteps u none - 1 })) ∧
  (∀ (s : State) (j : JEntry) (x : AdmRun) acked reply,
    let p := objNum j.cmd
    Takes s acked j → j.opcode = 0x14 → j.cond = .ready → j.stage = 8 → s.sq.admRun = some x → x.left ≤ 1 →
    (x.result.reason = 0 →
      ∃ t, exec (.spindleStep false acked reply) s = .next t ∧ Ends s t j 0x00 (admResult x.result) [.ports] ∧ t.sq.admRun = none
        ∧ pset t p = { pset s p with shed := shedPolicyOf (pset s p).shed j.cmd } ∧ ∀ q, q ≠ p → pset t q = pset s q ∧ line t q = line s q) ∧
    (x.result.reason ≠ 0 →
      ∃ t, exec (.spindleStep false acked reply) s = .next t ∧ Ends s t j 0x21 (admResult x.result) [] ∧ t.sq.admRun = none))

/-- LANE.MARGIN of 1 to 1,000 ms on a lane whose group is free starts the margining and waits for its end; a step before its end goes on waiting, and one after it completes DONE with the first 8 bytes of the report as RESULT. PORT.TAG with a sub-id below 16, TPIDs in use of those allowed, and no redundancy tag but of a stream that generates, stores the transmit profile; with sub-id 16 the receive profile; with sub-id 17 the redundancy profile (for PRP with LAN 0xA or 0xB); with sub-id 18 the custom TPID. Other ports keep their settings, and nothing outside the ports changes. -/
def Obligations.LaneMarginAndPortTag : Prop :=
  (∀ (s : State) (c : Cmd),
    (Starts s 0x15 useLaneMargin c → fld c 8 0 16 ≠ 0 → fld c 8 0 16 ≤ 1000 → marginBusy s (objNum c) = false →
      ∃ t, exec (.laneMargin c) s = .next t ∧ Waits s t 0x15 c (.margin (objNum c) s.tm.now) [.margins]
        ∧ tget none t.tst.margin (objNum c) = some (s.tm.now, fld c 8 0 16 * 1000000)) ∧
    (Starts s 0x17 usePortTag c → c.sub.toNat < 16 → (∀ i, i < fld c 20 0 2 → fld c (8 + 4 * i) 0 16 ∈ [0x8100, 0x88A8, (pset s (objNum c)).rx.custom.toNat]) →
      (fld c 20 3 2 = 0 ∨ (strm s (fld c 22 0 14)).genEn = true) →
      ∃ t, exec (.portTag c) s = .next t ∧ Completes s t 0x17 c 0x00 0 [.ports]
        ∧ (let T := tget {} (pset t (objNum c)).tag c.sub.toNat
          T.count = fld c 20 0 2 ∧ T.pcpFromClass = fbit c 20 2 ∧ T.redKind = fld c 20 3 2 ∧ T.stream = fld c 22 0 14
          ∧ tpidVal t (objNum c) T.tpid0 = fld c 8 0 16 ∧ T.tci0.toNat = fld c 10 0 16 ∧ tpidVal t (objNum c) T.tpid1 = fld c 12 0 16 ∧ T.tci1.toNat = fld c 14 0 16
          ∧ tpidVal t (objNum c) T.tpid2 = fld c 16 0 16 ∧ T.tci2.toNat = fld c 18 0 16)
        ∧ (∀ k, k ≠ c.sub.toNat → tget {} (pset t (objNum c)).tag k = tget {} (pset s (objNum c)).tag k)
        ∧ ∀ q, q ≠ objNum c → pset t q = pset s q) ∧
    (Starts s 0x17 usePortTag c → c.sub = 16 →
      ∃ t, exec (.portTag c) s = .next t ∧ Completes s t 0x17 c 0x00 0 [.ports]
        ∧ pset t (objNum c) = { pset s (objNum c) with rx := { (pset s (objNum c)).rx with rm8100 := fbit c 8 0, rm88a8 := fbit c 8 1, rmCustom := fbit c 8 2, count := fld c 9 0 2 } }
        ∧ ∀ q, q ≠ objNum c → pset t q = pset s q) ∧
    (Starts s 0x17 usePortTag c → c.sub = 17 → (fld c 8 0 2 = 3 → fld c 9 0 4 = 0xA ∨ fld c 9 0 4 = 0xB) →
      ∃ t, exec (.portTag c) s = .next t ∧ Completes s t 0x17 c 0x00 0 [.ports]
        ∧ pset t (objNum c) = { pset s (objNum c) with rx := { (pset s (objNum c)).rx with rxKind := fld c 8 0 2, dupMark := fbit c 8 2, remove := fbit c 8 3, lan := fld c 9 0 4, path := fld c 9 4 4 } }
        ∧ ∀ q, q ≠ objNum c → pset t q = pset s q) ∧
    (Starts s 0x17 usePortTag c → c.sub = 18 →
      ∃ t, exec (.portTag c) s = .next t ∧ Completes s t 0x17 c 0x00 0 [.ports]
        ∧ pset t (objNum c) = { pset s (objNum c) with rx := { (pset s (objNum c)).rx with custom := c.ops.setWidth 16 } }
        ∧ ∀ q, q ≠ objNum c → pset t q = pset s q)) ∧
  (∀ (s : State) (j : JEntry) (t0 n : Nat) acked reply,
    let l := objNum j.cmd
    Takes s acked j → j.opcode = 0x15 → j.stage = 1 → j.cond = .margin l t0 → tget none s.tst.margin l = some (t0, n) →
    (t0 + n ≤ s.tm.now → ∃ t, exec (.spindleStep false acked reply) s = .next t ∧ Ends s t j 0x00 (BitVec.ofNat 64 (ofLe (reply.data.take 8))) [.margins]
      ∧ tget none t.tst.margin l = none) ∧
    (s.tm.now < t0 + n → ∃ t e, exec (.spindleStep false acked reply) s = .next t ∧ t.sq.journal = s.sq.journal.erase j ++ [e] ∧ e.cmd = j.cmd ∧ e.cond = .margin l s.tm.now
      ∧ e.stage = 1 ∧ Untouched [.rings, .spindle] s t))

/-- BOBBIN.OPEN with a legal kind, size and base inside its data window, an OPEN completion bobbin (not the learn export's) where the kind is not completion, and a valid skein for a transmit bobbin, completes DONE: the bobbin is OPEN with the given context, its HOST_IDX and BLOCK_IDX 0, its crumbs clear and no contract bound. BOBBIN.CLOSE of an OPEN or STALE transmit or receive bobbin that is empty and idle, or of a completion bobbin that no bobbin names, completes DONE and leaves it CLOSED with only its crumbs; a contract bound to it is bound no more. On a CLOSED bobbin it completes DONE_NOTE. Other bobbins and contracts are unchanged. -/
def Obligations.BobbinOpenAndClose : Prop :=
  ∀ (s : State) (c : Cmd),
    let b := objNum c
    let B := bobn s b
    (Starts s 0x20 useBobbinOpen c → B.st ≠ .opened → B.st ≠ .draining →
      fld c 16 0 2 ≠ 0 → 3 ≤ fld c 17 0 8 → fld c 17 0 8 ≤ 15 →
      fld c 8 0 64 % min 4096 (entrySize (numKind (fld c 16 0 2)) * 2 ^ fld c 17 0 8) = 0 →
      inWindow s (fld c 18 0 6) (fld c 8 0 64) (entrySize (numKind (fld c 16 0 2)) * 2 ^ fld c 17 0 8) = true →
      (fld c 16 0 2 ≠ 3 → (bobn s (fld c 20 0 18)).st = .opened ∧ (bobn s (fld c 20 0 18)).kind = .completion
        ∧ ¬ (s.stn.exportEn = true ∧ s.stn.exportBob = fld c 20 0 18)) →
      (fld c 16 0 2 = 1 → (skein s (fld c 24 0 12)).valid = true) →
      ∃ t, exec (.bobbinOpen c) s = .next t ∧ Completes s t 0x20 c 0x00 0 [.bobbins]
        ∧ bobn t b = { kind := numKind (fld c 16 0 2), st := .opened, sizeLog2 := fld c 17 0 8, base := BitVec.ofNat 50 (fld c 8 6 50), window := fld c 18 0 6
                       completion := fld c 20 0 18, notify := fbit c 16 2, skein := fld c 24 0 12, tol := fld c 19 0 8
                       hostIdx := 0, blockIdx := 0, crumbs := 0, cstate := .free, contract := 0, next := 0, lastRelease := none, pushed := [] }
        ∧ ∀ x, x ≠ b → bobn t x = bobn s x) ∧
    (Starts s 0x21 useNone c → bobClosed B = false →
      (B.kind = .completion → bobsAny s (fun x X => x != b && X.kind != .completion && X.completion == b) = false) →
      (B.kind ≠ .completion → (B.st = .opened ∨ B.st = .stale) ∧ bocc B = 0 ∧ bobInFlight s b = false) →
      ∃ t, exec (.bobbinClose c) s = .next t ∧ Completes s t 0x21 c 0x00 0 [.bobbins, .contracts, .ports]
        ∧ bobn t b = { crumbs := B.crumbs } ∧ (∀ x, x ≠ b → bobn t x = bobn s x)
        ∧ (∀ n, contr t n = if B.cstate = .bound ∧ n = B.contract then { contr s n with bobbin := none } else contr s n)
        ∧ ∀ p, pdef t p = pdef s p ∧ pset t p = pset s p ∧ line t p = { line s p with xoff := (line t p).xoff, own := (line t p).own, dry := (line t p).dry }) ∧
    (Starts s 0x21 useNone c → bobClosed B = true → ∃ t, exec (.bobbinClose c) s = .next t ∧ Completes s t 0x21 c 0x02 0 [])

/-- BOBBIN.BIND with sub-id 0 on an OPEN, empty, idle transmit bobbin sets its skein, which for a bobbin bound to a contract has that contract's port and class. With sub-id 2 it binds an admitted, unbound contract to an empty, idle bobbin (transmit, with a skein of the contract's port and class; or receive, large enough for what the contract keeps posted), sets CSTATE to 1, notes the bobbin in the contract and fills its bucket with BURST. With sub-id 3 it sets CSTATE from 2 to 0 once the contract is FREE, and completes DONE_NOTE at CSTATE 0. Else each completes DONE; other bobbins and contracts are unchanged. -/
def Obligations.BobbinBindForms : Prop :=
  ∀ (s : State) (c : Cmd),
    let b := objNum c
    let B := bobn s b
    (let K := skein s (fld c 8 0 16)
     Starts s 0x22 useBobbinBind c → objKind c = 3 → c.sub = 0 → B.st = .opened → B.kind = .transmit →
      (B.cstate = .bound → K.port = (contr s B.contract).img.port ∧ K.cls = (contr s B.contract).img.cls) →
      fld c 8 0 16 < 4096 → K.valid = true → bocc B = 0 → bobInFlight s b = false →
      ∃ t, exec (.bobbinBindSkein c) s = .next t ∧ Completes s t 0x22 c 0x00 0 [.bobbins]
        ∧ bobn t b = { B with skein := fld c 8 0 16 } ∧ ∀ x, x ≠ b → bobn t x = bobn s x) ∧
    (let C := contr s (fld c 8 0 16)
     let K := skein s B.skein
     Starts s 0x22 useBobbinBind { c with sub := 2 } → objKind c = 3 → B.st ≠ .stale → C.st = .admitted → C.bobbin = none → B.cstate ≠ .bound →
      (C.img.rx = false → B.kind = .transmit ∧ K.valid = true ∧ K.port = C.img.port ∧ K.cls = C.img.cls) →
      (C.img.rx = true → B.kind = .receive ∧ rxReserve C.img ≤ bsize B) → bocc B = 0 → bobInFlight s b = false →
      ∃ t, exec (.bobbinBindContract c) s = .next t ∧ Completes s t 0x22 { c with sub := 2 } 0x00 0 [.bobbins, .contracts]
        ∧ bobn t b = { B with cstate := .bound, contract := fld c 8 0 16 }
        ∧ contr t (fld c 8 0 16) = { C with bobbin := some b, tok := C.img.burst * 8000, last := s.tm.count }
        ∧ (∀ x, x ≠ b → bobn t x = bobn s x) ∧ ∀ n, n ≠ fld c 8 0 16 → contr t n = contr s n) ∧
    (Starts s 0x22 useBobbinBind { c with sub := 3 } → objKind c = 3 → B.st ≠ .stale → B.cstate ≠ .free → B.cstate ≠ .bound → (contr s B.contract).st = .free →
      ∃ t, exec (.bobbinClearWithdrawn c) s = .next t ∧ Completes s t 0x22 { c with sub := 3 } 0x00 0 [.bobbins]
        ∧ bobn t b = { B with cstate := .free, contract := 0 } ∧ ∀ x, x ≠ b → bobn t x = bobn s x) ∧
    (Starts s 0x22 useBobbinBind { c with sub := 3 } → objKind c = 3 → B.st ≠ .stale → B.cstate = .free →
      ∃ t, exec (.bobbinClearWithdrawn c) s = .next t ∧ Completes s t 0x22 { c with sub := 3 } 0x02 0 [])

/-- BOBBIN.BIND on the block object with sub-id 1, a base and size that are multiples of 4,096 and end at or below 2^56, on a window that no bobbin names or that already is so, completes DONE with the window defined. On a command ring object, with the ring of Tenant privilege and ranges inside the bobbins and skeins, it stores the ring grant. Other windows and rings are unchanged. SKEIN.SET with VALID, a defined port, a class below 16 (below 8 in starter service) and a quantum of at least 64, on a skein whose port and class stay or that no transmit bobbin is bound to, and that stays enabled where a bobbin with a contract state is bound to it, completes DONE and stores port, class, quantum and enable; without VALID, on a skein that no bobbin and no demotion names, it undefines it. SPREAD.SET with sub-id 0 stores base and size of a group (SIZE 0 undefines it); with sub-id 1 it reads its words from the fabric, waiting for the answer, and then writes words of legal bits to the entries, 512 a step; an answer with an error, or an illegal word, completes BAD_OPERAND. Other skeins, groups and spread entries are unchanged. -/
def Obligations.WindowsGrantsSkeinsSpreads : Prop :=
  (∀ (s : State) (c : Cmd),
    (let new : Window := { base := fld c 16 0 64, size := fld c 24 0 64 }
     Starts s 0x22 useBobbinBind (asObj c 0 0 1) → fld c 16 0 64 % 4096 = 0 → fld c 24 0 64 % 4096 = 0 → fld c 16 0 64 + fld c 24 0 64 ≤ 2 ^ 56 →
      (window s (fld c 8 0 6) ≠ new → bobsAny s (fun _ B => B.window == fld c 8 0 6) = false) →
      ∃ t, exec (.dataWindowDefine c) s = .next t ∧ Completes s t 0x22 (asObj c 0 0 1) 0x00 0 [.bobbins]
        ∧ window t (fld c 8 0 6) = new ∧ (∀ w, w ≠ fld c 8 0 6 → window t w = window s w) ∧ ∀ b, bobn t b = bobn s b) ∧
    (Starts s 0x22 useBobbinBind (asObj c 0x10 (objNum c) 0) → objNum c < 8 → objNum c ≠ c.ring → (ring s (objNum c)).priv = 2 →
      fld c 8 0 32 + fld c 12 0 32 ≤ 262144 → fld c 16 0 16 + fld c 18 0 16 ≤ 4096 →
      ∃ t, exec (.tenantGrant c) s = .next t ∧ Recorded s t 0x22 (asObj c 0x10 (objNum c) 0) 0x00 0 ∧ Untouched [.rings] s t
        ∧ RingRegs (ring s c.ring) (ring t c.ring)
        ∧ ring t (objNum c) = { ring s (objNum c) with grant := { firstBob := fld c 8 0 32, bobs := fld c 12 0 32, firstSkein := fld c 16 0 16, skeins := fld c 18 0 16, window := fld c 20 0 6 } }
        ∧ ∀ q, q ≠ objNum c → q ≠ c.ring → ring t q = ring s q)) ∧
  (∀ (s : State) (c : Cmd),
    let k := objNum c
    let K := skein s k
    let same := K.valid = true ∧ K.port = fld c 9 0 8 ∧ K.cls = fld c 10 0 8
    (Starts s 0x24 useSkeinSet c → fbit c 8 0 = true → fld c 9 0 8 < 32 → (pdef s (fld c 9 0 8)).isSome → fld c 10 0 8 < 16 → 64 ≤ fld c 12 0 16 →
      (inStarter s = true → fld c 10 0 8 < 8) → (K.valid = true → ¬ same → boundTo s k (fun _ => true) = false) →
      (K.valid = true → K.enable = true → fbit c 8 1 = false → boundTo s k (fun B => B.cstate != .free) = false) →
      ∃ t, exec (.skeinSet c) s = .next t ∧ Completes s t 0x24 c 0x00 0 [.skeins]
        ∧ (same → skein t k = { K with quantum := fld c 12 0 16, enable := fbit c 8 1 })
        ∧ (¬ same → skein t k = { valid := true, port := fld c 9 0 8, cls := fld c 10 0 8, quantum := fld c 12 0 16, enable := fbit c 8 1 })
        ∧ ∀ x, x ≠ k → skein t x = skein s x) ∧
    (Starts s 0x24 useSkeinSet c → fbit c 8 0 = false → boundTo s k (fun _ => true) = false →
      s.ct.tab.any (fun e => e.2.st != .free && e.2.img.demoteEn && e.2.img.demoteSkein == k) = false →
      ∃ t, exec (.skeinSet c) s = .next t ∧ Completes s t 0x24 c 0x00 0 [.skeins] ∧ skein t k = {} ∧ ∀ x, x ≠ k → skein t x = skein s x)) ∧
  (∀ (s : State) (c : Cmd),
    let g := objNum c
    (Starts s 0x25 useSpreadSet c → c.sub = 0 → fld c 10 0 16 ≤ 4096 → fld c 8 0 16 + fld c 10 0 16 ≤ 65536 →
      ∃ t, exec (.spreadGroupSet c) s = .next t ∧ Completes s t 0x25 c 0x00 0 [.spreads]
        ∧ (fld c 10 0 16 ≠ 0 → spreadGroup t g = { base := fld c 8 0 16, size := fld c 10 0 16 }) ∧ (fld c 10 0 16 = 0 → spreadGroup t g = {})
        ∧ (∀ x, x ≠ g → spreadGroup t x = spreadGroup s x) ∧ t.spr.entry = s.spr.entry) ∧
    (let n := fld c 20 0 32
     let a := (spreadGroup s g).base + fld c 18 0 16
     let k : Cmd := { c with sub := 1 }
     Starts s 0x25 useSpreadSet k → n ≠ 0 → fld c 18 0 16 + n ≤ (spreadGroup s g).size → bufOk s c (fld c 8 0 64) (fld c 16 0 8) (4 * n) = true →
      (c.reads = [] → ∃ t, exec (.spreadEntriesWrite c) s = .next t ∧ Waits s t 0x25 k .fabric []) ∧
      (∀ r l, c.reads = r :: l → r.error = true → ∃ t, exec (.spreadEntriesWrite c) s = .next t ∧ Completes s t 0x25 k 0x11 0 []) ∧
      (∀ r l, c.reads = r :: l → r.error = false →
        let o := (r.data ++ List.replicate (4 * n) 0).take (4 * n)
        ((∃ i, i < n ∧ bits (ofLe (part o (4 * i) 4)) 18 13 ≠ 0) → ∃ t, exec (.spreadEntriesWrite c) s = .next t ∧ Completes s t 0x25 k 0x11 0 []) ∧
        ((∀ i, i < n → bits (ofLe (part o (4 * i) 4)) 18 13 = 0) → n ≤ 512 →
          ∃ t, exec (.spreadEntriesWrite c) s = .next t ∧ Completes s t 0x25 k 0x00 0 [.spreads] ∧ t.spr.group = s.spr.group
            ∧ (∀ i, i < n → tget 0 t.spr.entry (a + i) = BitVec.ofNat 32 (ofLe (part o (4 * i) 4))) ∧ ∀ x, x < a ∨ a + n ≤ x → tget 0 t.spr.entry x = tget 0 s.spr.entry x) ∧
        ((∀ i, i < n → bits (ofLe (part o (4 * i) 4)) 18 13 = 0) → 512 < n →
          ∃ t, exec (.spreadEntriesWrite c) s = .next t ∧ Waits s t 0x25 k .ready [.spreads] ∧ t.spr.group = s.spr.group
            ∧ (∀ i, i < 512 → tget 0 t.spr.entry (a + i) = BitVec.ofNat 32 (ofLe (part o (4 * i) 4))) ∧ ∀ x, x < a ∨ a + 512 ≤ x → tget 0 t.spr.entry x = tget 0 s.spr.entry x))))

/-- BOBBIN.DRAIN of an OPEN transmit or receive bobbin starts the drain: with DEFER it completes DEFERRED; without, it completes DONE where the drain has ended at once and the bobbin is OPEN again, and else waits for its end, after which a step completes it DONE, or BUSY where the bobbin became STALE. For a transmit bobbin all of whose entries have been examined and none of whose frames waits at the pool: with frames of it in flight it is DRAINING with its pushed copies dropped; with none in flight and BLOCK_IDX equal to HOST_IDX it is OPEN again and EV_BOB_DRAINED of its group is pending. Other bobbins are then unchanged. -/
def Obligations.BobbinDrain : Prop :=
  (∀ (s : State) (c : Cmd),
    let b := objNum c
    Starts s 0x23 useBobbinDrain c → fbit c 8 0 = false → (bobn s b).st = .opened → (bobn s b).kind = .transmit → (bobn s b).next = (bobn s b).hostIdx →
    s.tx.frames.filter (fun f => f.bobbin == b && waiting f && (f.origin == .uncontracted || f.origin == .demoted)) = [] →
    (bobInFlight s b = true →
      ∃ t, exec (.bobbinDrain c) s = .next t ∧ Waits s t 0x23 c (.bobbinDrained b) [.bobbins]
        ∧ (bobn t b).st = .draining ∧ (bobn t b).pushed = [] ∧ ∀ x, x ≠ b → bobn t x = bobn s x) ∧
    (bobInFlight s b = false → (bobn s b).blockIdx = (bobn s b).hostIdx →
      ∃ t, exec (.bobbinDrain c) s = .next t ∧ Recorded s t 0x23 c 0x00 0 ∧ RingFrame s t c.ring ∧ Pends t (bobGroup b) 8
        ∧ (bobn t b).st = .opened ∧ ∀ x, x ≠ b → bobn t x = bobn s x)) ∧
  (∀ (s : State) (c : Cmd),
    let b := objNum c
    let u := startDrain (started s 0x23 c) b
    Starts s 0x23 useBobbinDrain c → (bobn s b).kind ≠ .completion → (bobn s b).st = .opened →
    (fbit c 8 0 = true → ∃ t, exec (.bobbinDrain c) s = .next t ∧ Recorded s t 0x23 c 0x01 0 ∧ t.bob = u.bob ∧ t.tx = u.tx ∧ t.rx = u.rx) ∧
    (fbit c 8 0 = false → (bobn u b).st ≠ .draining → ∃ t, exec (.bobbinDrain c) s = .next t ∧ Recorded s t 0x23 c 0x00 0 ∧ t.bob = u.bob ∧ t.tx = u.tx ∧ t.rx = u.rx) ∧
    (fbit c 8 0 = false → (bobn u b).st = .draining → ∃ t, exec (.bobbinDrain c) s = .next t ∧ Waits s t 0x23 c (.bobbinDrained b) (.clock :: .rxPath :: flight)
      ∧ t.bob = u.bob ∧ t.tx = u.tx ∧ t.rx = u.rx)) ∧
  (∀ (s : State) (j : JEntry) acked reply,
    Takes s acked j → j.opcode = 0x23 → j.stage = 1 → j.cond = .bobbinDrained (objNum j.cmd) →
      ∃ t, exec (.spindleStep false acked reply) s = .next t ∧ Ends s t j (if (bobn s (objNum j.cmd)).st = .stale then 0x14 else 0x00) 0 [])

/-- A fetched descriptor of a powered OPEN transmit bobbin advances the bobbin. A failed fetch, or a failed check, raises the malformed event of its bank. One that passes: without a contract state it becomes the newest frame and claims cells; bound, with its port up, not suspended, within MAX_FRAME, its tokens and its reservation, it is accepted, with its start instant, cells and tokens drawn; bound with a port down or a suspended contract, or no longer bound, it is refused and counted. The oldest claim is granted once its cells are free. A frame read whole is staged with its data. A slot boundary moves the window on, and wakes a low-power port for a release within 5 us. The Whorl leaves low-power idle when something is to send; on an idle port that is up it sends DONE after a change of width, then the respond and the verify mPacket, then an own control frame, then the frame of tier 2, of tier 3, the suspended frame, and the deficit round robin's; it asks for a cut of a preemptable frame that tier 2 or 3 would overtake. A cut at the first place allowed suspends the frame. The time-stamp point stamps the frame or the control frame and takes the residence of an accepted one. At the end of its octets a transmission leaves the port idle, and READY leaves it SWITCHING. An acknowledged record stands in memory at its slot, and moves its completion bobbin on. A read error raises the malformed event. -/
def Obligations.TransmitPath : Prop :=
  ∀ s : State, s.ic.wakeHit = none →
    (∀ b (r : FabReply), (bobn s b).st = .opened → (bobn s b).kind = .transmit → (bobn s b).next ≠ (bobn s b).hostIdx → (bobn s b).pushed = [] → bobPowered s b →
      let B := bobn s b
      let d := BitVec.ofNat 256 (ofLe (r.data.take 32))
      let C := contr s B.contract
      let p := skeinPort s B
      let len := finished (txProfile s p (dfl d 88 4)) (dataLen d)
      let late := dbit d 85 && decide (t96n (nowT s) < releaseAt s d)
      let at_ := if late then s.tm.count + ceilDiv (releaseAt s d - t96n (nowT s)) 65536 else s.tm.count
      let K := refill C at_
      (r.error ∨ txCheck s b d ≠ none → Answers (exec (.descriptorFetchDone b r) s) s (.clock :: flight) fun t => Pends t (38 + b / 32768) 2
          ∧ (bobn t b).next = (B.next + 1) % (2 * bsize B)) ∧
      (r.error = false → B.cstate = .free → txCheck s b d = none →
        Answers (exec (.descriptorFetchDone b r) s) s [.bobbins, .txPath] fun t => t.tx.nextId = s.tx.nextId + 1
          ∧ (bobn t b).next = (B.next + 1) % (2 * bsize B) ∧ (∀ x, x ≠ b → bobn t x = bobn s x)
          ∧ ∃ f, t.tx.frames = s.tx.frames ++ [f] ∧ f.id = s.tx.nextId ∧ f.bobbin = b ∧ f.index = B.next ∧ f.origin = .uncontracted ∧ f.stage = .claiming
            ∧ f.desc = d ∧ f.len = len ∧ f.cells = ceilDiv len 64 ∧ f.port = p
            ∧ tget [] t.tx.claims (sliceOf p) = tget [] s.tx.claims (sliceOf p) ++ [f.id]) ∧
      (r.error = false → B.cstate = .bound → txCheck s b d = none → s.pw.softHold = false → (line s p).up = true → s.port.downing.toNat.testBit p = false → C.suspended = false →
        len ≤ C.img.maxFrame → cost len ≤ K.tok →
        C.held + ceilDiv len 64 ≤ (if usable s (dPS (2 * sliceOf p)) then C.draw0 else 0) + (if usable s (dPS (2 * sliceOf p + 1)) then C.draw1 else 0) →
        Answers (exec (.descriptorFetchDone b r) s) s [.bobbins, .txPath, .contracts] fun t => t.tx.nextId = s.tx.nextId + 1
          ∧ (bobn t b).next = (B.next + 1) % (2 * bsize B) ∧ (dbit d 85 = true → (bobn t b).lastRelease = some (releaseAt s d)) ∧ (∀ x, x ≠ b → bobn t x = bobn s x)
          ∧ contr t B.contract = { K with tok := K.tok - cost len, held := C.held + ceilDiv len 64, accepted := C.accepted + 1 } ∧ (∀ n, n ≠ B.contract → contr t n = contr s n)
          ∧ t.tx.claims = s.tx.claims ∧ ∃ f, t.tx.frames = s.tx.frames ++ [f] ∧ f.id = s.tx.nextId ∧ f.bobbin = b ∧ f.index = B.next ∧ f.origin = .accepted ∧ f.stage = .reading
            ∧ f.contract = B.contract ∧ f.start = at_ ∧ f.bound = bound8 C.img ∧ f.len = len) ∧
      (r.error = false → B.cstate ≠ .free → txCheck s b d = none → s.pw.softHold = false →
        (B.cstate ≠ .bound ∨ (line s p).up = false ∨ s.port.downing.toNat.testBit p = true ∨ C.suspended = true) →
        Answers (exec (.descriptorFetchDone b r) s) s flight fun t => (contr t B.contract).refused = C.refused + 1 ∧ (bobn t b).next = (B.next + 1) % (2 * bsize B)) ∧
      (r.error = false → B.cstate ≠ .free → txCheck s b d = none → s.pw.softHold = true →
        Answers (exec (.descriptorFetchDone b r) s) s [.bobbins, .txPath] fun t => ∃ f, t.tx.frames = s.tx.frames ++ [f] ∧ f.id = s.tx.nextId ∧ f.stage = .atDoor ∧ f.desc = d)) ∧
    (∀ k fid rest f, tget [] s.tx.claims k = fid :: rest → txFrame s fid = some f → f.cells ≤ poolFree s k →
      Answers (exec (.poolClaimGranted k) s) s [.txPath] fun t => tget [] t.tx.claims k = rest ∧ tget 0 t.tx.poolHeld k = tget 0 s.tx.poolHeld k + f.cells
        ∧ ∃ g, txFrame t fid = some g ∧ g.stagedAt = s.tm.count ∧ g.cells = f.cells ∧ ((∀ n, f.origin ≠ .csi n) → g.stage = .reading) ∧ ((∃ n, f.origin = .csi n) → g.stage = .staged)) ∧
    (∀ fid data f, txFrame s fid = some f → f.stage = .reading →
      Answers (exec (.frameStaged fid data) s) s [.txPath] fun t => ∃ g, txFrame t fid = some g ∧ g.stage = .staged ∧ g.stagedAt = s.tm.count
        ∧ g.data = (data ++ List.replicate (dLen f.desc) 0).take (dataLen f.desc)) ∧
    (∀ p, isOn s (dMS (sliceOf p)) → (line s p).cur < s.tm.count / 8 →
      let near := ∃ f ∈ s.tx.frames, f.port = p ∧ f.origin = .accepted ∧ waiting f = true ∧ s.tm.count < f.start ∧ f.start ≤ s.tm.count + 5000
      ((line s p).lpi = false ∨ ¬ near → Answers (exec (.calendarSlotBoundary p) s) s [.ports] fun t => LineIs s t p { line s p with cur := s.tm.count / 8 }) ∧
      ((line s p).lpi = true → near → Answers (exec (.calendarSlotBoundary p) s) s [.ports, .counters] fun t =>
        LineIs s t p { line s p with cur := s.tm.count / 8, lpi := false, waking := true, lpiAt := s.tm.now })) ∧
    (∀ p, (line s p).up → (line s p).shed.st ≠ .switching → (line s p).waking = false → s.pw.softHold = false → isOn s (dMS (sliceOf p)) →
      let L := line s p
      (L.lpi = true → wantsSend s p = true →
        Answers (exec (.whorlDecision p) s) s [.ports, .counters] fun t => LineIs s t p { L with lpi := false, waking := true, lpiAt := s.tm.now }) ∧
      (∀ f rest, L.lpi = false → L.tx = .idle → L.shed.doneDue = true → L.own = f :: rest → ownReady s p →
        Answers (exec (.whorlDecision p) s) s ([.ports, .counters] ++ loud) fun t => (line t p).own = rest ∧ (line t p).tx = .own f ∧ (line t p).shed.doneDue = false ∧ ∀ q, q ≠ p → line t q = line s q) ∧
      (L.lpi = false → L.tx = .idle → L.shed.doneDue = false → 0 < L.respondDue →
        Answers (exec (.whorlDecision p) s) s ([.ports, .counters] ++ loud) fun t => (line t p).tx = .mpacket true ∧ (line t p).respondDue = L.respondDue - 1 ∧ ∀ q, q ≠ p → line t q = line s q) ∧
      (L.lpi = false → L.tx = .idle → L.shed.doneDue = false → L.respondDue = 0 → L.verifyDue = true →
        Answers (exec (.whorlDecision p) s) s ([.ports, .counters] ++ loud) fun t => (line t p).tx = .mpacket false ∧ (line t p).verifyDue = false ∧ ∀ q, q ≠ p → line t q = line s q) ∧
      (∀ f rest, L.lpi = false → L.tx = .idle → L.shed.doneDue = false → L.respondDue = 0 → L.verifyDue = false → ownReady s p → L.own = f :: rest →
        Answers (exec (.whorlDecision p) s) s ([.ports, .counters] ++ loud) fun t => (line t p).own = rest ∧ (line t p).tx = .own f ∧ (line t p).ownAt = some (max s.tm.now L.txEnd)
          ∧ (line t p).txEnd = max s.tm.now L.txEnd + octetNs s p 84 ∧ ∀ q, q ≠ p → line t q = line s q) ∧
      (∀ f, L.lpi = false → L.tx = .idle → L.shed.doneDue = false → L.respondDue = 0 → L.verifyDue = false → (L.own = [] ∨ ownReady s p = false) →
        (tier2 s p = some f ∨ (tier2 s p = none ∧ tier3 s p = some f) ∨ (tier2 s p = none ∧ tier3 s p = none ∧ L.suspended = none ∧ (drrSelect s p).1 = some f)) →
        Answers (exec (.whorlDecision p) s) s ([.clock, .ports, .counters, .streams, .skeins, .txPath] ++ loud) fun t => (line t p).tx = .frame f.id
          ∧ (line t p).txEnd = max s.tm.now L.txEnd + octetNs s p (f.len + 20) ∧ ∀ q, q ≠ p → line t q = line s q) ∧
      (∀ fid f, L.lpi = false → L.tx = .idle → L.shed.doneDue = false → L.respondDue = 0 → L.verifyDue = false → (L.own = [] ∨ ownReady s p = false) → tier2 s p = none → tier3 s p = none →
        L.suspended = some fid → txFrame s fid = some f → notHeld s p f.cls → parked s p f = false →
        Answers (exec (.whorlDecision p) s) s ([.ports, .counters, .txPath] ++ loud) fun t => (line t p).tx = .frame f.id ∧ (line t p).suspended = none
          ∧ (line t p).txEnd = max s.tm.now L.txEnd + octetNs s p (f.len - f.sent + 20) ∧ ∀ q, q ≠ p → line t q = line s q) ∧
      (∀ fid, L.lpi = false → L.tx = .frame fid → preemptable s fid → preemptActive s p → ((tier2 s p).isSome ∨ (tier3 s p).isSome) → L.cutAsked = false →
        Answers (exec (.whorlDecision p) s) s [.ports] fun t => LineIs s t p { L with cutAsked := true, cutAt := s.tm.now })) ∧
    (∀ p sent fid f, (line s p).tx = .frame fid → txFrame s fid = some f → (line s p).cutAsked → f.stampDone → f.cls < 8 → preemptActive s p → cutPlace s p sent f → sent + 64 ≤ f.len →
      Answers (exec (.preemptionCut p sent) s) s [.ports, .counters, .txPath] fun t => (line t p).tx = .idle ∧ (line t p).suspended = some fid
        ∧ (∀ q, q ≠ p → line t q = line s q) ∧ ∃ g, txFrame t fid = some g ∧ g.stage = .suspended ∧ g.sent = sent ∧ g.fragments = f.fragments + 1) ∧
    (∀ p x fid f, (line s p).tx = .frame fid → txFrame s fid = some f → f.stampDone = false → (line s p).txAt ≤ s.tm.now →
      Answers (exec (.txTimeStampPoint p x) s) s ([.timeUnit, .clock] ++ flight) fun t => ∃ g, txFrame t fid = some g ∧ g.stampDone ∧ g.stamp = (stampPoint s p true x).1 ∧ g.quality = nowQ s
        ∧ (f.origin = .accepted → g.residence = max 0 ((accOf s g.stamp - f.startAcc) / 65536) ∧ (g.exceeded = true ↔ (f.bound : Int) < g.residence ∨ f.exceeded = true)) ∧ (f.origin ≠ .accepted → g.late = f.late)) ∧
    (∀ p x f, (line s p).tx = .own f → (line s p).pointDone = false → (line s p).txAt ≤ s.tm.now →
      Answers (exec (.txTimeStampPoint p x) s) s [.timeUnit, .ports, .stack] fun t => LineIs s t p { line s p with tx := .own (stampOwn (stampPoint s p true x).1 f), pointDone := true }) ∧
    (∀ p, (line s p).tx ≠ .idle → (line s p).txEnd ≤ s.tm.now → pointPassed s p →
      Answers (exec (.transmissionEnd p) s) s flight fun t => (line t p).tx = .idle ∧ (line t p).cutAsked = false
        ∧ (∀ f, (line s p).tx = .own f → (line t p).idleSince = s.tm.now ∧ (∀ q, q ≠ p → line t q = line s q)
          ∧ (isReady f = true → (line s p).shed.readyDue = true → (line t p).shed.st = .switching ∧ (line t p).shed.readySent = true ∧ (line t p).shed.since = s.tm.now))) ∧
    (∀ cb slot error e, s.bob.issued.find? (fun e => e.cb == cb && e.slot == some slot && !e.acked) = some e →
      let a := 64 * (bobn s cb).base.toNat + 32 * (slot % bsize (bobn s cb))
      Answers (exec (.completionRecordAck cb slot error) s) s (.clock :: .memory :: flight) fun t =>
        (∀ x, x < a ∨ a + e.record.bytes.length ≤ x → memGet t.mem x = memGet s.mem x)
        ∧ (error = false → ∀ i, i < e.record.bytes.length → memGet t.mem (a + i) = (e.record.bytes[i]?).getD 0)
        ∧ (error = false → s.bob.issued = [e] → s.bob.ready = [] → (bobn s cb).st = .opened → e.record.src ≠ some cb →
            t.bob.issued = [] ∧ (bobn t cb).blockIdx = (slot + 1) % (2 * bsize (bobn s cb)))) ∧
    (∀ fid f, txFrame s fid = some f → f.stage = .reading →
      Answers (exec (.frameDataReadError fid) s) s flight fun t => Pends t (38 + f.bobbin / 32768) 2)

/-- On a port that receives frames, and that takes what arrives (in loopback, what it sent): a bad start mPacket adds one to RX_SMD_ERR; a failed reassembly adds its fragments and one to RX_ASSEMBLY_ERR; a frame under 18 octets, or under 64 with a wrong FCS, adds its octets and one fragment; a longer frame with a wrong FCS that the port does not pass adds its octets and one FCS error; none of them goes further. A good frame of 64 octets or more, no control or shedding frame, on a port without tag removal, recovery, learning and flooding, with no rule and no station entry, joins the receive queue of its slice while that has room. A recirculation pass takes the head of its queue. When the buffer writes of a delivery are acknowledged, with no octets left or no buffer for them, the delivery ends and its parts stand in memory. A transfer hands off the oldest frame of the interface. A frame from the core that passes its checks becomes a frame that claims cells; one that fails them is counted and discarded. A redundancy sweep visit that is due makes a stream past its reset time take any number, counts it and raises its event; another stream it leaves. -/
def Obligations.ReceivePath : Prop :=
  ∀ s : State, s.ic.wakeHit = none →
    (∀ p o x descs asm, rxOn s p → echoRx s p (.frame o asm) = true →
      (asm.badSmd = true → Answers (exec (.frameReceived p o x descs asm) s) s [.counters, .ports] fun t => t.ctr = (cntPort s p 22 1).ctr) ∧
      (asm.badSmd = false → asm.failed = true → Answers (exec (.frameReceived p o x descs asm) s) s [.counters, .ports] fun t =>
        (asm.fragments ≠ 0 → t.ctr = (cntPort (cntPort s p 23 asm.fragments) p 21 1).ctr) ∧ (asm.fragments = 0 → t.ctr = (cntPort s p 21 1).ctr))) ∧
    (∀ p o x descs, rxOn s p → echoRx s p (.frame o {}) = true → o.length ≤ (pset s p).line.m →
      let bad := o.drop (o.length - 4) != fcsOf (o.take (o.length - 4))
      (o.length < 18 ∨ (o.length < 64 ∧ bad) →
        Answers (exec (.frameReceived p o x descs {}) s) s [.counters, .timeUnit, .ports] fun t => t.ctr = (cntPort (cntPort s p 19 o.length) p 10 1).ctr) ∧
      (64 ≤ o.length → bad → (pset s p).line.fcsPass = false →
        Answers (exec (.frameReceived p o x descs {}) s) s [.counters, .timeUnit, .ports] fun t => t.ctr = (cntPort (cntPort s p 19 o.length) p 8 1).ctr) ∧
      (64 ≤ o.length → bad = false → octBe o 12 2 ≠ 0x8808 → octBe o 12 2 ≠ 0x88B5 → (pset s p).rx.count = 0 → (pset s p).rx.rxKind = 0 →
        (pset s p).learn.en = false → (pset s p).learn.flood = false → (pset s p).line.fcsKeep = false → s.pc.rule = [] → s.stn.entry = [] →
        (tget [] s.rx.csi (sliceOf p)).foldl (fun a e => a + csiCells e.1) 0 + ceilDiv (o.length - 4) 64 ≤ 1024 →
        Answers (exec (.frameReceived p o x descs {}) s) s ([.counters, .timeUnit, .rxPath, .ports] ++ loud) fun t =>
          ∃ md, tget [] t.rx.csi (sliceOf p) = tget [] s.rx.csi (sliceOf p) ++ [(o.take (o.length - 4), md)])) ∧
    (∀ k descs f rest, tget [] s.pc.recirc k = f :: rest → isOn s (dPC k) →
      Answers (exec (.recirculationPass k descs) s) s (.parsers :: .rxPath :: flight) fun t => tget [] t.pc.recirc k = rest) ∧
    (∀ rid error octets w, s.rx.writes.find? (fun w => w.id == rid) = some w →
      (error = true ∨ w.rest = [] ∨ hasBuffers s w.bobbin = false →
        Answers (exec (.rxBufferWriteAck rid error octets) s) s (.memory :: .clock :: .rxPath :: flight) fun t =>
          t.rx.writes = s.rx.writes.filter (fun v => v.id != rid) ∧ (error = false → ∀ a, memGet t.mem a = memGet (writeParts s w.parts false).mem a)) ∧
      (error = false → w.rest ≠ [] → hasBuffers s w.bobbin = true → Answers (exec (.rxBufferWriteAck rid error octets) s) s [] fun t => t.rx.writes = s.rx.writes)) ∧
    (∀ k e rest, tget [] s.rx.csi k = e :: rest → isOn s (dMS k) →
      Answers (exec (.csiRxTransfer k) s) s [.rxPath, .counters, .ports] fun t => tget [] t.rx.csi k = rest ∧ tget none t.rx.csiLast k = some e
        ∧ t.rx.writes = s.rx.writes) ∧
    (∀ k md data, isOn s (dMS k) → s.tx.frames.any (fun f => f.origin == .csi k && f.stage == .claiming) = false →
      (csiOk s k md (csiDesc md) → data.length = dLen (csiDesc md) →
        Answers (exec (.csiTxFrame k md data) s) s [.txPath, .counters] fun t => t.ctr = (cntCsi s k 2 1).ctr ∧ t.tx.nextId = s.tx.nextId + 1
          ∧ ∃ f, t.tx.frames = s.tx.frames ++ [f] ∧ f.id = s.tx.nextId ∧ f.origin = .csi k ∧ f.stage = .claiming ∧ f.port = dfl md 0 5 ∧ f.data = data.take (dataLen (csiDesc md))) ∧
      ((csiOk s k md (csiDesc md) = false ∨ data.length ≠ dLen (csiDesc md)) →
        Answers (exec (.csiTxFrame k md data) s) s [.counters] fun t => t.ctr = (cntCsi s k 3 1).ctr)) ∧
    (∀ n, isOn s dSL → sweepDue s n = true →
      let past := (strm s n).lastPass + (strm s n).resetMs * 1000000 ≤ s.tm.count
      ((strm s n).recEn → (strm s n).takeAny = false → past →
        Answers (exec (.redundancySweepVisit n) s) s ([.streams, .counters] ++ loud) fun t => strm t n = { strm s n with takeAny := true }
          ∧ (∀ m, m ≠ n → strm t m = strm s m) ∧ Pends t 48 0 ∧ t.ctr = (cntStream s n 6 1).ctr) ∧
      ((strm s n).recEn = false ∨ (strm s n).takeAny = true ∨ ¬ past →
        Answers (exec (.redundancySweepVisit n) s) s [.streams] fun t => ∀ m, strm t m = strm s m))

/-- The learn port takes the oldest request once its bank is ready: a key that no entry holds takes a free slot of its first candidate bucket, with HELD, TOUCHED, the stamp and the initial age; an entry with the same destination is marked touched; a dynamic entry not in hold-down whose destination differs takes the new one, with HELD set and its stamp; a static entry stays. A due visit of the age sweep gives a touched dynamic entry of its bucket the initial age and clears the mark, takes one from a greater age, removes an entry of age 1 or less, leaves static entries, every other bucket, and a bucket whose bank is not ON, and moves on; the last bucket raises its event. The hold tick advances the counter by one when its time has come. A due visit of the hold sweep clears HELD where the age is over the limit and changes nothing else. -/
def Obligations.StationEvents : Prop :=
  ∀ s : State, s.ic.wakeHit = none →
    (∀ r rest, s.stn.fifo = r :: rest → isOn s dSL → learnReady s r →
      let new : StnEntry := { valid := true, choice := false, touched := true, held := true, stamp := s.stn.tick % 64, age := s.stn.ageInit, dest := r.dest }
      Answers (exec .learnPortWrite s) s (.stations :: flight) fun t => t.stn.fifo = rest
        ∧ (∀ i, stnFind s r.fid r.mac = some i →
          ((stn s i).dest = r.dest → stn t i = { stn s i with touched := true }) ∧
          ((stn s i).dest ≠ r.dest → (stn s i).static = false → inHold s (stn s i) = false →
            stn t i = { stn s i with dest := r.dest, touched := true, age := s.stn.ageInit, held := true, stamp := s.stn.tick % 64 }) ∧
          ((stn s i).dest ≠ r.dest → (stn s i).static ∨ inHold s (stn s i) → stn t i = stn s i) ∧ ∀ k, k ≠ i → stn t k = stn s k)
        ∧ (∀ i, stnFind s r.fid r.mac = none → freeSlot s (cands s r.fid r.mac).1.1 = some i →
          let k := 8 * (cands s r.fid r.mac).1.1 + i
          stn t k = { new with q := (stn t k).q, gen := (stn t k).gen } ∧ (stn t k).q = quot r.fid r.mac ∧ ∀ x, x ≠ k → stn t x = stn s x)) ∧
    (isOn s dSL → s.stn.period ≠ 0 → s.stn.ageDue ≤ s.tm.count * 65536 →
      Answers (exec .ageSweepVisit s) s (.stations :: flight) fun t => t.stn.agePos = (s.stn.agePos + 1) % 65536 ∧ t.stn.ageDue = s.stn.ageDue + s.stn.period * 1000000
        ∧ (s.stn.agePos = 65535 → Pends t 37 0) ∧ (∀ j, j / 8 ≠ s.stn.agePos → stn t j = stn s j)
        ∧ (bucketOn s s.stn.agePos = false → ∀ j, stn t j = stn s j) ∧ (bucketOn s s.stn.agePos = true → ∀ i, i < 8 →
          let e := stn s (8 * s.stn.agePos + i)
          let e' := stn t (8 * s.stn.agePos + i)
          (e.valid = false ∨ e.static → e' = e) ∧
          (e.valid → e.static = false → e.touched → e' = { e with age := s.stn.ageInit, touched := false }) ∧
          (e.valid → e.static = false → e.touched = false → 1 < e.age → e' = { e with age := e.age - 1 }) ∧
          (e.valid → e.static = false → e.touched = false → e.age ≤ 1 → e'.valid = false))) ∧
    (isOn s dSL → s.stn.tickAt + holdTau s.stn.h * 1000000 ≤ s.tm.count →
      Answers (exec .holdTick s) s [.stations] fun t => t.stn = { s.stn with tick := s.stn.tick + 1, tickAt := s.stn.tickAt + holdTau s.stn.h * 1000000 }) ∧
    (isOn s dSL → s.stn.holdBase + s.stn.holdPos / 4096 ≤ s.stn.tick →
      Answers (exec .holdSweepVisit s) s [.stations] fun t => t.stn.holdPos = (s.stn.holdPos + 1) % 65536
        ∧ (∀ j, j / 8 ≠ s.stn.holdPos → stn t j = stn s j) ∧ (bucketOn s s.stn.holdPos = false → ∀ j, stn t j = stn s j) ∧ (bucketOn s s.stn.holdPos = true → ∀ i, i < 8 →
          let e := stn s (8 * s.stn.holdPos + i)
          (e.held → holdLimit s.stn.h < holdAge s e → stn t (8 * s.stn.holdPos + i) = { e with held := false }) ∧
          (e.held = false ∨ holdAge s e ≤ holdLimit s.stn.h → stn t (8 * s.stn.holdPos + i) = e)))

/-- For a port whose PCS has power and whose line is in the state that the event needs: alignment gained or lost is noted with its instant (a loss counts); a link comes up once every condition has held for the hold time, with its event: its verification begins, or preemption is active with event 3 where it is not verified, and a port that may shed sends OFFER. A link that lost alignment for 1 us, outside a change of its width, goes down with its event. A lane reports training done: the port's training is done with its last lane, and a growth whose turn it is sends READY; or it reports a failure (port event 11), and training begins again 100 ms later. The verify timer sends another verify mPacket or, after three, gives up with event 4; a respond mPacket makes preemption active with event 3; a verify mPacket makes one more respond due; in loopback either is what the port has sent and leaves the echo. A FEC second adds its block errors, and with FEC its three counts, with event 2 above the threshold. Low-power idle begins and its wake time ends; the partner entering it counts. -/
def Obligations.LineEvents : Prop :=
  ∀ (s : State) (p : Nat), s.ic.wakeHit = none →
    let L := line s p
    let E := if looped s p then { line s p with echo := (line s p).echo.tail } else line s p
    (isEnabled s p → pcsOn s p → L.locked = false →
      Answers (exec (.pcsAlignmentLock p) s) s [.ports] fun t => LineIs s t p { L with locked := true, lockAt := s.tm.now }) ∧
    (pcsOn s p → L.locked →
      Answers (exec (.pcsAlignmentLoss p) s) s [.ports, .counters] fun t =>
        LineIs s t p { L with locked := false, lockAt := s.tm.now } ∧ t.ctr = (cntPort s p 32 1).ctr) ∧
    (isEnabled s p → s.port.downing.toNat.testBit p = false → L.up = false → L.locked → L.training = .done → portNormal s p →
      L.lockAt + (pset s p).line.linkHold * 1000000 ≤ s.tm.now →
      Answers (exec (.linkUp p) s) s (.ports :: loud) fun t =>
        (line t p).up = true ∧ (line t p).upAt = s.tm.now ∧ (line t p).width = L.width ∧ Pends t p 0
        ∧ ((pset s p).line.preempt = .off → (line t p).verify = L.verify)
        ∧ ((pset s p).line.preempt = .verify → (line t p).verify = .waiting 1 ∧ (line t p).verifyDue = true ∧ (line t p).verifyAt = s.tm.now)
        ∧ ((pset s p).line.preempt = .noVerify → (line t p).verify = .active ∧ Pends t p 3)
        ∧ (shedAble s p ∧ (pset s p).shed.mode ≠ 0 → (line t p).own = L.own ++ [.shed (shedFrame s p 1 (widthNow s p) 0 0)] ∧ (line t p).shed.lastOffer = s.tm.now)
        ∧ (¬(shedAble s p ∧ (pset s p).shed.mode ≠ 0) → (line t p).own = L.own) ∧ ∀ q, q ≠ p → line t q = line s q) ∧
    (L.up → L.locked = false → L.shed.st ≠ .switching → L.shed.readyDue = false → L.lockAt + 1000 ≤ s.tm.now →
      Answers (exec (.linkDown p) s) s flight fun t => (line t p).up = false ∧ (line t p).tx = .idle ∧ (line t p).width = 0 ∧ (line t p).shed.st = .full
        ∧ (line t p).verify = .idle ∧ (line t p).echo = [] ∧ Pends t p 1) ∧
    (∀ l, portOfLane s l = some p → L.training = .running → isOn s (dLG (l / 4)) →
      let D := tset false L.laneDone l true
      let all := ∀ i, i < lanesNeeded s p → tget false D (p + i) = true
      let go := growing s p = true ∧ L.shed.readyDue = false ∧ (L.shed.initiator = true ∨ L.shed.readyGot = true)
      (¬ all → Answers (exec (.trainingDone l) s) s [.ports] fun t => LineIs s t p { L with laneDone := D }) ∧
      (all → ¬ go → Answers (exec (.trainingDone l) s) s [.ports] fun t => LineIs s t p { L with laneDone := D, training := .done }) ∧
      (all → go → Answers (exec (.trainingDone l) s) s [.ports] fun t => LineIs s t p { L with
        laneDone := D, training := .done, own := L.own ++ [.shed (shedFrame s p 5 (if L.shed.target = 0 then widthNow s p else L.shed.target) 0 L.shed.txn)]
        shed := { L.shed with seq := L.shed.seq + 1, readyDue := true } }) ∧
      Answers (exec (.trainingFailed l) s) s (.ports :: loud) (fun t => Pends t p 11 ∧
        LineIs s t p { L with training := .failed, trainFailAt := s.tm.now, laneDone := if L.up then L.laneDone else [] })) ∧
    (isEnabled s p → s.port.downing.toNat.testBit p = false → L.training = .failed → L.trainFailAt + 100000000 ≤ s.tm.now → portReady s p →
      Answers (exec (.trainingRetry p) s) s [.ports] fun t => LineIs s t p { L with training := .running }) ∧
    (∀ n, L.verify = .waiting n → L.up → preemptOn s p → L.verifyAt + (pset s p).line.verifyMs * 1000000 ≤ s.tm.now →
      Answers (exec (.verifyTimerExpiry p) s) s (.ports :: loud) fun t =>
        (n < 3 → LineIs s t p { L with verify := .waiting (n + 1), verifyAt := s.tm.now, verifyDue := true }) ∧
        (3 ≤ n → LineIs s t p { L with verify := .failed, verifyDue := false } ∧ Pends t p 4)) ∧
    (∀ n, L.verify = .waiting n → L.up → preemptOn s p → echoRx s p (.mpacket true) →
      Answers (exec (.respondMpacketReceived p) s) s (.ports :: loud) fun t =>
        LineIs s t p { E with verify := .active, verifyDue := false, beHeldEvt := false } ∧ Pends t p 3) ∧
    (rxOn s p → preemptOn s p → echoRx s p (.mpacket false) →
      Answers (exec (.verifyMpacketReceived p) s) s [.ports] fun t => LineIs s t p { E with respondDue := L.respondDue + 1 }) ∧
    (∀ d cw bad sym blk, pdef s p = some d → pcsOn s p →
      (d.fec ≠ .none → Answers (exec (.fecSecond p cw bad sym blk) s) s (.counters :: loud) fun t =>
        t.ctr = (cntPort (cntPort (cntPort (cntPort s p 31 blk) p 28 cw) p 29 bad) p 30 sym).ctr ∧ ((pset s p).line.fecDegraded < sym → Pends t p 2)) ∧
      (d.fec = .none → Answers (exec (.fecSecond p cw bad sym blk) s) s [.counters] fun t => t.ctr = (cntPort s p 31 blk).ctr)) ∧
    (L.up → (pset s p).line.lpiEn → L.lpi = false → L.waking = false → L.tx = .idle → L.suspended = none →
      wantsSend s p = false → max L.idleSince L.upAt + (pset s p).line.lpiIdle * 1000 ≤ s.tm.now →
      Answers (exec (.lpiEntry p) s) s [.ports, .counters] fun t =>
        LineIs s t p { L with lpi := true, lpiAt := s.tm.now } ∧ t.ctr = (cntPort s p 50 1).ctr) ∧
    (L.waking → L.lpiAt + 5000 ≤ s.tm.now →
      Answers (exec (.lpiWakeEnd p) s) s [.ports] fun t => LineIs s t p { L with waking := false, idleSince := s.tm.now }) ∧
    (∀ n, wireOn s p → Answers (exec (.partnerLpiEntry p n) s) s [.counters] fun t => t.ctr = (cntPort (cntPort s p 26 1) p 27 n).ctr)

/-- On a port that receives from its partner, each shedding message is counted as a received frame and a shedding message. OFFER notes that the peer offers. A REQUEST in FULL or SHED, or in PROPOSED where the own address is not the lower one, is answered: DECLINE, with the exchange back where it was before an own REQUEST, where the port cannot shed or take the width (reason 1, log 81, or the contracts do not pass there, reason 1) or its policy is off for a smaller width (reason 3); ACCEPT otherwise, AGREED with its target and transaction, and a growth begins to train the lanes it adds. In any other state it changes nothing more. ACCEPT of the own transaction ends PROPOSED: READY is queued where the width does not grow, and the lanes train where it grows. DECLINE ends PROPOSED and holds proposals for 100 ms. READY of the transaction is noted; an agreed responder whose lanes are ready answers it with its own READY. DONE changes nothing else. ABORT ends AGREED of a responder that has not sent READY. Nothing but the port and the counters changes. -/
def Obligations.SheddingMessages : Prop :=
  ∀ (s : State) (p : Nat) (m : ShedMsg), s.ic.wakeHit = none → wireOn s p →
    let L := line s p
    let H := L.shed
    let w := m.proposed
    let counted := fun (o : Host.Outcome State Fault Refusal) => Answers o s [.counters] fun t => t.ctr = (shedRx s p).ctr
    let becomes := fun (o : Host.Outcome State Fault Refusal) (N : Line) => Answers o s [.ports, .counters] fun t => t.ctr = (shedRx s p).ctr ∧ LineIs s t p N
    let trains := fun (t : State) (w : Nat) => (∀ q, q ≠ p → line t q = line s q) ∧ (line t p).width = L.width
      ∧ (∀ i, widthNow s p ≤ i → i < w → tget false (line t p).laneDone (p + i) = false) ∧ ((lgOf p w).all (isOn s) = true → (line t p).training = .running)
    let ready : Shed → Line := fun N => { L with own := L.own ++ [.shed (shedFrame s p 5 (if H.target = 0 then widthNow s p else H.target) 0 H.txn)], shed := { N with st := .agreed, readyDue := true, seq := H.seq + 1 } }
    let back : Bool → Line := fun wait => { L with
      training := if L.up then .done else L.training
      shed := { H with st := H.prev, initiator := false, readySent := false, readyGot := false, readyDue := false, doneDue := false, since := s.tm.now
                       notBefore := if wait then s.tm.now + 100000000 else H.notBefore } }
    becomes (exec (.offer p m) s) { L with shed := { H with peerOffered := true } } ∧
    (∀ prev, (H.st = .full ∨ H.st = .shed) ∧ prev = H.st ∨ H.st = .proposed ∧ m.src.toNat ≤ (macOf s p).toNat ∧ prev = H.prev →
      let can := shedAble s p ∧ (w = 2 ∨ w = 4 ∨ w = 8)
      let declined : Nat → Line := fun reason => { L with own := L.own ++ [.shed (shedFrame s p 4 (widthNow s p) reason m.txn)], shed := { H with st := prev, initiator := false, seq := H.seq + 1 } }
      let agreed : Shed := { H with seq := H.seq + 1, st := .agreed, prev := prev, txn := m.txn, target := w, initiator := false, readySent := false, readyGot := false, readyDue := false, since := s.tm.now }
      (¬ can → becomes (exec (.request p m) s) (declined 1)) ∧
      (can → w ≤ widthNow s p → (pset s p).shed.mode = 0 → becomes (exec (.request p m) s) (declined 3)) ∧
      (can → w ≤ widthNow s p → (pset s p).shed.mode ≠ 0 → shedFits (shedRx s p) p w = false → becomes (exec (.request p m) s) (declined 1)) ∧
      (can → w ≤ widthNow s p → (pset s p).shed.mode ≠ 0 → shedFits (shedRx s p) p w = true →
        becomes (exec (.request p m) s) { L with own := L.own ++ [.shed (shedFrame s p 3 w 0 m.txn)], shed := agreed }) ∧
      (can → widthNow s p < w → Answers (exec (.request p m) s) s [.ports, .counters] fun t => t.ctr = (shedRx s p).ctr ∧ trains t w
        ∧ (line t p).own = L.own ++ [.shed (shedFrame s p 3 w 0 m.txn)] ∧ (line t p).shed = agreed)) ∧
    (H.st = .agreed ∨ H.st = .switching ∨ H.st = .proposed ∧ (macOf s p).toNat < m.src.toNat → counted (exec (.request p m) s)) ∧
    (H.st = .proposed → m.txn = H.txn → H.target ≤ widthNow s p → becomes (exec (.accept p m) s) (ready H)) ∧
    (H.st = .proposed → m.txn = H.txn → widthNow s p < H.target → Answers (exec (.accept p m) s) s [.ports, .counters] fun t =>
      t.ctr = (shedRx s p).ctr ∧ trains t H.target ∧ (line t p).own = L.own ∧ (line t p).shed = { H with st := .agreed }) ∧
    (H.st ≠ .proposed ∨ m.txn ≠ H.txn → counted (exec (.accept p m) s)) ∧
    (H.st = .proposed → becomes (exec (.decline p m) s) (back true)) ∧
    (H.st ≠ .proposed → counted (exec (.decline p m) s)) ∧
    (m.txn = H.txn → H.st = .agreed → H.initiator = false → H.readyDue = false →
      (growing s p = false ∨ lanesDone s p = true → becomes (exec (.ready p m) s) (ready { H with readyGot := true })) ∧
      (growing s p = true → lanesDone s p = false → becomes (exec (.ready p m) s) { L with shed := { H with readyGot := true } })) ∧
    (m.txn = H.txn → H.st = .switching ∨ H.readyDue = true → H.initiator = true → becomes (exec (.ready p m) s) { L with shed := { H with readyGot := true } }) ∧
    (m.txn ≠ H.txn → counted (exec (.ready p m) s)) ∧
    counted (exec (.done p m) s) ∧
    (H.st = .agreed → H.initiator = false → H.readyDue = false → becomes (exec (.abort p m) s) (back false)) ∧
    (H.st ≠ .agreed ∨ H.initiator = true ∨ H.readyDue = true → counted (exec (.abort p m) s))

/-- A proposal (or an accepted growth of the own that has not sent READY) not ended within 1 ms is aborted with a message and goes back, holding proposals for 100 ms; an agreed responder without READY within 1 ms goes back. Once READY has gone and come and both directions are aligned, the port runs at the target width, in FULL or SHED, queues DONE before any other control frame, counts the change and raises event 7. A switch not aligned within 8 us goes back, loses the lock, counts and raises event 8. Each second a port whose policy lets it shed sends OFFER. At the end of a window of 64 us the octets start again at 0, low windows are counted, and the port proposes the width that its policy asks for where it may. Every other port is unchanged. -/
def Obligations.SheddingTimers : Prop :=
  ∀ (s : State) (p : Nat), s.ic.wakeHit = none →
    let L := line s p
    let H := L.shed
    let becomes := fun (o : Host.Outcome State Fault Refusal) (N : Line) => Answers o s [.ports] fun t => LineIs s t p N
    let back : Bool → Shed := fun wait => { H with
      st := H.prev, initiator := false, readySent := false, readyGot := false, readyDue := false, doneDue := false, since := s.tm.now
      notBefore := if wait then s.tm.now + 100000000 else H.notBefore }
    let T := if L.up then .done else L.training
    ((H.st = .proposed ∨ (H.st = .agreed ∧ H.initiator ∧ H.readyDue = false)) → H.since + 1000000 ≤ s.tm.now →
      becomes (exec (.shedProposeTimeout p) s) { L with training := T, own := L.own ++ [.shed (shedFrame s p 7 (widthNow s p) 5 H.txn)]
                                                        shed := { back true with seq := H.seq + 1 } }) ∧
    (H.st = .agreed → H.initiator = false → H.readyGot = false → H.readyDue = false → H.since + 1000000 ≤ s.tm.now →
      becomes (exec (.shedAgreeTimeout p) s) { L with training := T, shed := back false }) ∧
    (∀ d, pdef s p = some d → H.st = .switching → H.readyGot →
      Answers (exec (.shedAligned p) s) s ([.ports, .counters] ++ loud) fun t => Pends t p 7 ∧ t.ctr = (cntPort s p 57 1).ctr
        ∧ (d.width = H.target → (line t p).shed.st = .full ∧ (line t p).width = 0)
        ∧ (d.width ≠ H.target → (line t p).shed.st = .shed ∧ (line t p).width = H.target)
        ∧ (line t p).locked ∧ (line t p).lockAt = s.tm.now ∧ (line t p).shed.doneDue = true ∧ (∃ o, (line t p).own = .shed o :: L.own)
        ∧ (line t p).shed.lowWindows = 0 ∧ (line t p).shed.octets = 0 ∧ (line t p).shed.windowAt = s.tm.now ∧ ∀ q, q ≠ p → line t q = line s q) ∧
    (H.st = .switching → H.since + 8000 ≤ s.tm.now →
      Answers (exec (.shedSwitchTimeout p) s) s ([.ports, .counters] ++ loud) fun t => Pends t p 8 ∧ t.ctr = (cntPort s p 58 1).ctr
        ∧ LineIs s t p { L with locked := false, lockAt := s.tm.now + 999000, training := T, shed := back false }) ∧
    (L.up → shedAble s p → (pset s p).shed.mode ≠ 0 → H.lastOffer + 1000000000 ≤ s.tm.now →
      becomes (exec (.offerTimer p) s) { L with own := L.own ++ [.shed (shedFrame s p 1 (widthNow s p) 0 0)], shed := { H with lastOffer := s.tm.now, seq := H.seq + 1 } }) ∧
    (∀ W, L.up → shedAble s p → (pset s p).shed.mode ≠ 0 ∨ H.growOff = true → H.windowAt + 64000 ≤ s.tm.now →
      let S := (pset s p).shed
      let w := widthNow s p
      let r := curRate s p
      let n := if H.octets * 32 < S.low * (r / 2) ∧ 2 < w then H.lowWindows + 1 else 0
      W = { H with lowWindows := n, octets := 0, windowAt := s.tm.now, growOff := H.growOff && decide (w < 8) } →
      let want := if S.mode = 0 then some 8 else if S.mode = 2 then some S.width else if w < 8 ∧ S.grow * r < H.octets * 32 then some 8
        else if S.hold ≤ n ∧ 2 < w then some (w / 2) else none
      let may := fun x => H.peerOffered = true ∧ (H.st = .full ∨ H.st = .shed) ∧ H.notBefore ≤ s.tm.now ∧ x ≠ w ∧ (w < x ∨ shedFits (setLine s p { L with shed := W }) p x = true)
      (∀ x, want = some x → may x → becomes (exec (.shedWindowEnd p) s) { L with
        own := L.own ++ [.shed (shedFrame s p 2 (if x = 0 then w else x) 0 (H.txn + 1))]
        shed := { W with st := .proposed, prev := H.st, txn := H.txn + 1, target := x, initiator := true, readySent := false, readyGot := false, readyDue := false
                         since := s.tm.now, seq := H.seq + 1 } }) ∧
      (want = none → becomes (exec (.shedWindowEnd p) s) { L with shed := W }) ∧
      (∀ x, want = some x → ¬ may x → becomes (exec (.shedWindowEnd p) s) { L with shed := W }))

/-- On a port that receives from its partner: a pause frame outside mode PAUSE is only counted; in mode PAUSE every class gets the same timer, its time times 512 bit times from now and its hold 2 ns later, or no timer for time 0. A PFC frame outside mode PFC is only counted; in mode PFC the classes of an enabled priority get that priority's timer and the other classes keep theirs. A class whose timer runs, whose hold instant has come and which awaits no end of a frame becomes held; at the end of its timer it is released. While delivery of a class is held back, its instant is kept; longer than the delay, XOFF is queued once, and again after half the time it sent; once delivery goes on, time 0 is queued where XOFF had been. -/
def Obligations.PauseAndPfc : Prop :=
  ∀ (s : State) (p : Nat), s.ic.wakeHit = none →
    (∀ q, wireOn s p → (pset s p).line.fc ≠ .pause →
      Answers (exec (.pauseFrameReceived p q) s) s [.counters] fun t => t.ctr = (cntPort (countRx s p 64 1) p 7 1).ctr) ∧
    (∀ q : BitVec 16, wireOn s p → (pset s p).line.fc = .pause →
      Answers (exec (.pauseFrameReceived p q) s) s ([.ports, .counters] ++ loud) fun t => (∀ x, x ≠ p → line t x = line s x) ∧ ∀ cl, cl < 16 →
        (q = 0 → tget 0 (line t p).holdEnd cl = 0 ∧ (line t p).held.toNat.testBit cl = false) ∧
        (q ≠ 0 → tget 0 (line t p).holdEnd cl = s.tm.now + ceilDiv (q.toNat * 512000) (curRate s p) ∧ tget 0 (line t p).holdFrom cl = s.tm.now + 2)) ∧
    (∀ en q, wireOn s p → (pset s p).line.fc ≠ .pfc →
      Answers (exec (.pfcFrameReceived p en q) s) s [.counters] fun t => t.ctr = (cntPort (countRx s p 64 1) p 7 1).ctr) ∧
    (∀ (en : BitVec 8) (q : BitVec 128), wireOn s p → (pset s p).line.fc = .pfc →
      Answers (exec (.pfcFrameReceived p en q) s) s ([.ports, .counters] ++ loud) fun t => (∀ x, x ≠ p → line t x = line s x) ∧ ∀ cl, cl < 16 →
        let i := bits (pset s p).pfcMap.toNat (3 * cl) 3
        let n := bits q.toNat (16 * i) 16
        (en.toNat.testBit i = false → tget 0 (line t p).holdEnd cl = tget 0 (line s p).holdEnd cl) ∧
        (en.toNat.testBit i = true → n = 0 → tget 0 (line t p).holdEnd cl = 0 ∧ (line t p).held.toNat.testBit cl = false) ∧
        (en.toNat.testBit i = true → n ≠ 0 → tget 0 (line t p).holdEnd cl = s.tm.now + ceilDiv (n * 512000) (curRate s p) ∧ tget 0 (line t p).holdFrom cl = s.tm.now + 2)) ∧
    (∀ cl, cl < 16 → isOn s (dMS (sliceOf p)) → s.tm.now < tget 0 (line s p).holdEnd cl → tget 0 (line s p).holdFrom cl ≤ s.tm.now →
      (line s p).armed.any (fun e => e.1 == cl) = false → (line s p).held.toNat.testBit cl = false →
      Answers (exec (.classHoldStart p cl) s) s [.ports, .counters] fun t => (line t p).held.toNat.testBit cl = true
        ∧ (line t p).holdEnd = (line s p).holdEnd ∧ ∀ x, x ≠ p → line t x = line s x) ∧
    (∀ cl, cl < 16 → tget 0 (line s p).holdEnd cl ≠ 0 → tget 0 (line s p).holdEnd cl ≤ s.tm.now →
      Answers (exec (.holdTimerExpiry p cl) s) s [.ports, .counters] fun t => (line t p).held.toNat.testBit cl = false
        ∧ tget 0 (line t p).holdEnd cl = 0 ∧ ∀ x, x ≠ p → line t x = line s x) ∧
    (∀ cl, mayXoff s p cl →
      let x := xoffOf s p cl
      let idle := fun (o : Host.Outcome State Fault Refusal) => Answers o s [.ports] fun t => LineIs s t p (line s p)
      let begun := fun (o : Host.Outcome State Fault Refusal) => Answers o s [.ports] fun t =>
        LineIs s t p { line s p with xoff := tset {} (line s p).xoff cl { x with since := some s.tm.now } }
      let timer := fun (o : Host.Outcome State Fault Refusal) => Answers o s [.ports] fun t =>
        LineIs s t p { line (if x.sentAt.isSome then sendFlow s p cl 0 else s) p with xoff := tset {} (line s p).xoff cl {} }
      let sent := fun (o : Host.Outcome State Fault Refusal) => Answers o s [.ports] fun t =>
        LineIs s t p { line (sendFlow s p cl 0xFFFF) p with xoff := tset {} (line s p).xoff cl { x with sentAt := some s.tm.now } }
      (heldBack s p cl = false → timer (exec (.xoffDelayExpiry p cl) s) ∧ timer (exec (.xoffRepeat p cl) s)) ∧
      (heldBack s p cl = true → x.since = none → begun (exec (.xoffDelayExpiry p cl) s)) ∧
      (heldBack s p cl = true → x.since = none → x.sentAt = none → begun (exec (.xoffRepeat p cl) s)) ∧
      (∀ t0, heldBack s p cl = true → x.since = some t0 →
        (x.sentAt = none → t0 + (pset s p).xoffDelay < s.tm.now → sent (exec (.xoffDelayExpiry p cl) s)) ∧
        (x.sentAt ≠ none ∨ s.tm.now ≤ t0 + (pset s p).xoffDelay → idle (exec (.xoffDelayExpiry p cl) s)) ∧
        (∀ t1, x.sentAt = some t1 → t1 + ceilDiv (0xFFFF * 256 * 1000) (curRate s p) ≤ s.tm.now → sent (exec (.xoffRepeat p cl) s)) ∧
        (∀ t1, x.sentAt = some t1 → s.tm.now < t1 + ceilDiv (0xFFFF * 256 * 1000) (curRate s p) → idle (exec (.xoffRepeat p cl) s)) ∧
        (x.sentAt = none → idle (exec (.xoffRepeat p cl) s))))

/-- For an image that passes the checks of CONTRACT.ADMIT, on a FREE contract number: while another test runs the command waits for it; a test of more than one step waits between its steps, and then ends as one of a single step does. A failed test completes REFUSED_ADMISSION with its RESULT and changes no contract. A passed one, without a stack mask or approved by this instance as the Distaff, completes DONE with its RESULT and leaves the contract ADMITTED with the image, unbound, with its cells drawn; other contracts and FAB_RATE are unchanged. Not approved it completes REFUSED_ADMISSION with reason 7. A member asks its Distaff and waits: approved, it ends as a passed test, otherwise REFUSED_ADMISSION with reason 7, or STACK_SPLIT without an answer; one that cannot reach its Distaff completes STACK_SPLIT. CONTRACT.QUERY sub-id 0 answers the same status and RESULT and leaves every contract as it was. -/
def Obligations.ContractAdmission : Prop :=
  (∀ (s : State) (c : Cmd),
    let n := objNum c
    let i := imageOf c
    let r := admTest s (some (n, i))
    let refused := { r with reason := 7, failValid := true, failContract := n }
    inStarter s = false → imageBad s i = false → (contr s n).st = .free →
    (Starts s 0x30 useContract c →
     (admBusy s = true → ∃ t, exec (.contractAdmit c) s = .next t ∧ Waits s t 0x30 c .admFree []) ∧
     (admBusy s = false → testSteps s (some (n, i)) ≠ 1 →
        ∃ t, exec (.contractAdmit c) s = .next t ∧ Waits s t 0x30 c .ready [] ∧ t.sq.admRun = some { ring := c.ring, result := r, left := testSteps s (some (n, i)) - 1 }) ∧
     (admBusy s = false → testSteps s (some (n, i)) = 1 →
       (r.reason ≠ 0 → ∃ t, exec (.contractAdmit c) s = .next t ∧ Completes s t 0x30 c 0x21 (admResult r) [.spindle] ∧ t.sq.adm = { r with status := 0x21 }) ∧
       (r.reason = 0 → i.stackMask = 0 ∨ s.stk.st = .distaff ∧ approval s i.stackMask = 0 →
         ∃ t, exec (.contractAdmit c) s = .next t ∧ Completes s t 0x30 c 0x00 (admResult r) [.contracts, .spindle] ∧ t.sq.adm = { r with status := 0x00 }
           ∧ (contr t n).st = .admitted ∧ (contr t n).img = i ∧ (contr t n).bobbin = none ∧ ((contr t n).draw0, (contr t n).draw1) = drawCells s n i
           ∧ (contr t n).suspended = false ∧ t.ct.fabRate = s.ct.fabRate ∧ ∀ m, m ≠ n → contr t m = contr s m) ∧
       (r.reason = 0 → i.stackMask ≠ 0 → s.stk.st = .distaff → approval s i.stackMask ≠ 0 →
         ∃ t, exec (.contractAdmit c) s = .next t ∧ Completes s t 0x30 c 0x21 (admResult refused) [.spindle] ∧ t.sq.adm = { refused with status := 0x21 }) ∧
       (r.reason = 0 → i.stackMask ≠ 0 → s.stk.st ≠ .distaff → canAsk s = true →
         ∃ t, exec (.contractAdmit c) s = .next t ∧ Waits s t 0x30 c (.stackReply c.ring) [.stack, .ports] ∧ t.stk.nextTag = s.stk.nextTag + 1
           ∧ tget none t.stk.reply c.ring = some (.waiting s.tm.now (s.stk.nextTag + 1))) ∧
       (r.reason = 0 → i.stackMask ≠ 0 → s.stk.st ≠ .distaff → canAsk s = false →
         ∃ t, exec (.contractAdmit c) s = .next t ∧ Completes s t 0x30 c 0x41 0 [.spindle] ∧ t.sq.adm = { r with status := 0x41 }))) ∧
    (Starts s 0x32 useContract c → c.sub = 0 →
     (admBusy s = true → ∃ t, exec (.contractQuery c) s = .next t ∧ Waits s t 0x32 c .admFree []) ∧
     (admBusy s = false → testSteps s (some (n, i)) ≠ 1 →
        ∃ t, exec (.contractQuery c) s = .next t ∧ Waits s t 0x32 c .ready [] ∧ t.sq.admRun = some { ring := c.ring, result := r, left := testSteps s (some (n, i)) - 1 }) ∧
     (admBusy s = false → testSteps s (some (n, i)) = 1 →
       (r.reason ≠ 0 → ∃ t, exec (.contractQuery c) s = .next t ∧ Completes s t 0x32 c 0x21 (admResult r) [.spindle] ∧ t.sq.adm = { r with status := 0x21 }) ∧
       (r.reason = 0 → i.stackMask = 0 ∨ s.stk.st = .distaff ∧ approval s i.stackMask = 0 →
         ∃ t, exec (.contractQuery c) s = .next t ∧ Completes s t 0x32 c 0x00 (admResult r) [.spindle] ∧ t.sq.adm = { r with status := 0x00 }) ∧
       (r.reason = 0 → i.stackMask ≠ 0 → s.stk.st = .distaff → approval s i.stackMask ≠ 0 →
         ∃ t, exec (.contractQuery c) s = .next t ∧ Completes s t 0x32 c 0x21 (admResult refused) [.spindle] ∧ t.sq.adm = { refused with status := 0x21 }) ∧
       (r.reason = 0 → i.stackMask ≠ 0 → s.stk.st ≠ .distaff → canAsk s = true →
         ∃ t, exec (.contractQuery c) s = .next t ∧ Waits s t 0x32 c (.stackReply c.ring) [.stack, .ports] ∧ t.stk.nextTag = s.stk.nextTag + 1
           ∧ tget none t.stk.reply c.ring = some (.waiting s.tm.now (s.stk.nextTag + 1))) ∧
       (r.reason = 0 → i.stackMask ≠ 0 → s.stk.st ≠ .distaff → canAsk s = false →
         ∃ t, exec (.contractQuery c) s = .next t ∧ Completes s t 0x32 c 0x41 0 [.spindle] ∧ t.sq.adm = { r with status := 0x41 })))) ∧
  (∀ (s : State) (j : JEntry) (x : AdmRun) acked reply,
    let n := objNum j.cmd
    let i := imageOf j.cmd
    Takes s acked j → (j.opcode = 0x30 ∨ j.opcode = 0x32 ∧ j.cmd.sub = 0) → j.cond = .ready → j.stage = 8 → s.sq.admRun = some x →
    (1 < x.left → Answers (exec (.spindleStep false acked reply) s) s [.rings, .spindle] fun t =>
      t.sq.admRun = some { x with left := x.left - 1 } ∧ ∃ e, t.sq.journal = s.sq.journal.erase j ++ [e] ∧ e.cmd = j.cmd ∧ e.stage = 8 ∧ e.cond = .ready ∧ e.step = j.step + 1) ∧
    (x.left ≤ 1 → x.result.reason ≠ 0 →
      ∃ t, exec (.spindleStep false acked reply) s = .next t ∧ Ends s t j 0x21 (admResult x.result) [] ∧ t.sq.admRun = none) ∧
    (x.left ≤ 1 → x.result.reason = 0 → i.stackMask = 0 ∨ s.stk.st = .distaff ∧ approval s i.stackMask = 0 →
      ∃ t, exec (.spindleStep false acked reply) s = .next t ∧ Ends s t j 0x00 (admResult x.result) [.contracts] ∧ t.sq.admRun = none
        ∧ (j.opcode = 0x30 → (contr t n).st = .admitted ∧ (contr t n).img = i ∧ ((contr t n).draw0, (contr t n).draw1) = drawCells s n i)
        ∧ (j.opcode = 0x32 → t.ct = s.ct) ∧ ∀ m, m ≠ n → contr t m = contr s m)) ∧
  (∀ (s : State) (j : JEntry) acked reply,
    let n := objNum j.cmd
    let i := imageOf j.cmd
    let r : AdmResult := { candValid := true, candidate := n, margin := (j.scratch[0]?).getD 0 }
    Takes s acked j → (j.opcode = 0x30 ∨ j.opcode = 0x32 ∧ j.cmd.sub = 0) → j.stage = 1 → j.cond = .stackReply j.ring →
    (tget none s.stk.reply j.ring = some (.answered 0) →
      ∃ t, exec (.spindleStep false acked reply) s = .next t ∧ Ends s t j 0x00 (admResult r) [.contracts, .stack, .ports]
        ∧ (j.opcode = 0x30 → (contr t n).st = .admitted ∧ (contr t n).img = i) ∧ (j.opcode = 0x32 → t.ct = s.ct) ∧ tget none t.stk.reply j.ring = none
        ∧ ∀ m, m ≠ n → contr t m = contr s m) ∧
    (∀ a, a ≠ 0 → tget none s.stk.reply j.ring = some (.answered a) →
      ∃ t, exec (.spindleStep false acked reply) s = .next t
        ∧ Ends s t j 0x21 (admResult { r with reason := 7, failValid := true, failContract := n }) [.stack, .ports] ∧ tget none t.stk.reply j.ring = none) ∧
    (tget none s.stk.reply j.ring = some .timeout ∨ tget none s.stk.reply j.ring = none →
      ∃ t, exec (.spindleStep false acked reply) s = .next t ∧ Ends s t j 0x41 0 [.stack, .ports] ∧ tget none t.stk.reply j.ring = none))

/-- CONTRACT.WITHDRAW of an admitted contract completes DONE; its bobbin has CSTATE 2; with a frame in flight the contract is WITHDRAWING, with none it is FREE and EV_CT_WITHDRAWN is pending. CONTRACT.AMEND of an admitted contract with its own image completes DONE at once. With another legal image of the same direction, port, class and stack mask the test runs on the transitional values, as for CONTRACT.ADMIT; on a pass the new image is in force with tokens of at most its burst, and the transitional values stay while a frame of before is in flight. CONTRACT.QUERY sub-id 1 answers as AMEND would and changes no contract. Other contracts are unchanged. -/
def Obligations.ContractWithdrawAndAmend : Prop :=
  ∀ (s : State) (c : Cmd),
    let n := objNum c
    let C := contr s n
    let i := transOf C (imageOf c)
    let r := admTest s (some (n, i))
    let refused := { r with reason := 7, failValid := true, failContract := n }
    (Starts s 0x31 useNone c → C.st = .admitted → ctInFlight s n none = true →
      ∃ t, exec (.contractWithdraw c) s = .next t ∧ Completes s t 0x31 c 0x00 0 [.contracts, .bobbins]
        ∧ (contr t n).st = .withdrawing ∧ (∀ b, C.bobbin = some b → (bobn t b).cstate = .withdrawn) ∧ ∀ m, m ≠ n → contr t m = contr s m) ∧
    (Starts s 0x31 useNone c → C.st = .admitted → ctInFlight s n none = false →
      ∃ t, exec (.contractWithdraw c) s = .next t ∧ Recorded s t 0x31 c 0x00 0 ∧ Pends t 46 4
        ∧ (contr t n).st = .free ∧ (contr t n).draw0 = 0 ∧ (contr t n).draw1 = 0
        ∧ (∀ b, C.bobbin = some b → (bobn t b).cstate = .withdrawn) ∧ ∀ m, m ≠ n → contr t m = contr s m) ∧
    (Starts s 0x33 useContractAmend c → objKind c ≠ 0 → inStarter s = false → C.st = .admitted → imageBad s (imageOf c) = false → amendBad C (imageOf c) = false →
     (imageOf c = C.img → ∃ t, exec (.contractAmend c) s = .next t ∧ Completes s t 0x33 c 0x00 0 []) ∧
     (imageOf c ≠ C.img →
     (admBusy s = true → ∃ t, exec (.contractAmend c) s = .next t ∧ Waits s t 0x33 c .admFree []) ∧
     (admBusy s = false → testSteps s (some (n, i)) ≠ 1 →
        ∃ t, exec (.contractAmend c) s = .next t ∧ Waits s t 0x33 c .ready [] ∧ t.sq.admRun = some { ring := c.ring, result := r, left := testSteps s (some (n, i)) - 1 }) ∧
     (admBusy s = false → testSteps s (some (n, i)) = 1 →
       (r.reason ≠ 0 → ∃ t, exec (.contractAmend c) s = .next t ∧ Completes s t 0x33 c 0x21 (admResult r) [.spindle] ∧ t.sq.adm = { r with status := 0x21 }) ∧
       (r.reason = 0 → i.stackMask = 0 ∨ s.stk.st = .distaff ∧ approval s i.stackMask = 0 →
         ∃ t, exec (.contractAmend c) s = .next t ∧ Completes s t 0x33 c 0x00 (admResult r) [.contracts, .spindle] ∧ t.sq.adm = { r with status := 0x00 }
           ∧ (contr t n).st = .admitted ∧ (contr t n).img = imageOf c ∧ (contr t n).bobbin = C.bobbin ∧ (contr t n).tok = min C.tok ((imageOf c).burst * 8000)
           ∧ ((contr t n).trans = some i ∨ (contr t n).trans = none ∧ ctInFlight s n (some (if i.rx then s.rx.nextId else s.tx.nextId)) = false)
           ∧ ∀ m, m ≠ n → contr t m = contr s m) ∧
       (r.reason = 0 → i.stackMask ≠ 0 → s.stk.st = .distaff → approval s i.stackMask ≠ 0 →
         ∃ t, exec (.contractAmend c) s = .next t ∧ Completes s t 0x33 c 0x21 (admResult refused) [.spindle] ∧ t.sq.adm = { refused with status := 0x21 }) ∧
       (r.reason = 0 → i.stackMask ≠ 0 → s.stk.st ≠ .distaff → canAsk s = true →
         ∃ t, exec (.contractAmend c) s = .next t ∧ Waits s t 0x33 c (.stackReply c.ring) [.stack, .ports] ∧ t.stk.nextTag = s.stk.nextTag + 1
           ∧ tget none t.stk.reply c.ring = some (.waiting s.tm.now (s.stk.nextTag + 1))) ∧
       (r.reason = 0 → i.stackMask ≠ 0 → s.stk.st ≠ .distaff → canAsk s = false →
         ∃ t, exec (.contractAmend c) s = .next t ∧ Completes s t 0x33 c 0x41 0 [.spindle] ∧ t.sq.adm = { r with status := 0x41 })))) ∧
    (Starts s 0x32 useContract c → c.sub = 1 → inStarter s = false → C.st = .admitted → imageBad s (imageOf c) = false → amendBad C (imageOf c) = false →
     (imageOf c = C.img → ∃ t, exec (.contractQuery c) s = .next t ∧ Completes s t 0x32 c 0x00 0 []) ∧
     (imageOf c ≠ C.img →
     (admBusy s = true → ∃ t, exec (.contractQuery c) s = .next t ∧ Waits s t 0x32 c .admFree []) ∧
     (admBusy s = false → testSteps s (some (n, i)) ≠ 1 →
        ∃ t, exec (.contractQuery c) s = .next t ∧ Waits s t 0x32 c .ready [] ∧ t.sq.admRun = some { ring := c.ring, result := r, left := testSteps s (some (n, i)) - 1 }) ∧
     (admBusy s = false → testSteps s (some (n, i)) = 1 →
       (r.reason ≠ 0 → ∃ t, exec (.contractQuery c) s = .next t ∧ Completes s t 0x32 c 0x21 (admResult r) [.spindle] ∧ t.sq.adm = { r with status := 0x21 }) ∧
       (r.reason = 0 → i.stackMask = 0 ∨ s.stk.st = .distaff ∧ approval s i.stackMask = 0 →
         ∃ t, exec (.contractQuery c) s = .next t ∧ Completes s t 0x32 c 0x00 (admResult r) [.spindle] ∧ t.sq.adm = { r with status := 0x00 }) ∧
       (r.reason = 0 → i.stackMask ≠ 0 → s.stk.st = .distaff → approval s i.stackMask ≠ 0 →
         ∃ t, exec (.contractQuery c) s = .next t ∧ Completes s t 0x32 c 0x21 (admResult refused) [.spindle] ∧ t.sq.adm = { refused with status := 0x21 }) ∧
       (r.reason = 0 → i.stackMask ≠ 0 → s.stk.st ≠ .distaff → canAsk s = true →
         ∃ t, exec (.contractQuery c) s = .next t ∧ Waits s t 0x32 c (.stackReply c.ring) [.stack, .ports] ∧ t.stk.nextTag = s.stk.nextTag + 1
           ∧ tget none t.stk.reply c.ring = some (.waiting s.tm.now (s.stk.nextTag + 1))) ∧
       (r.reason = 0 → i.stackMask ≠ 0 → s.stk.st ≠ .distaff → canAsk s = false →
         ∃ t, exec (.contractQuery c) s = .next t ∧ Completes s t 0x32 c 0x41 0 [.spindle] ∧ t.sq.adm = { r with status := 0x41 }))))

/-- CONTRACT.AMEND on the block object with FAB_RATE of at most 3,200,000 Mb/s completes DONE where it is the value in force; a new value is set when the admission test with it passes (DONE) and is not when the test fails (REFUSED_ADMISSION), in one step or after several; contracts are unchanged either way. STREAM.SET with a history of 1 to 64, a reset time of 1 to 1,000 ms, an identification kind of 0 to 2 and a VLAN identifier only with kind 1, where no tag profile needs the generation it would end: with an identification that another stream has it completes BAD_OPERAND, with no slot free for it NO_ROOM; otherwise DONE with the fields stored (the sequence number only where asked), the next received number taken as it comes where a recovery or identification field changed, counters from 0 where the stream begins, and the stream in one slot of its key, or in none without an identification. Other streams keep their fields and slots. -/
def Obligations.FabRateAndStream : Prop :=
  (∀ (s : State) (c : Cmd),
    let k := asObj c 0 0 1
    let u := { s with ct := { s.ct with fabRate := fld c 8 0 22 } }
    let r := admTest u none
    Starts s 0x33 useContractAmend k → inStarter s = false → fld c 8 0 22 ≤ 3200000 →
    (fld c 8 0 22 = s.ct.fabRate → ∃ t, exec (.fabRateSet c) s = .next t ∧ Completes s t 0x33 k 0x00 0 []) ∧
    (fld c 8 0 22 ≠ s.ct.fabRate → admBusy s = true → ∃ t, exec (.fabRateSet c) s = .next t ∧ Waits s t 0x33 k .admFree []) ∧
    (fld c 8 0 22 ≠ s.ct.fabRate → admBusy s = false → testSteps u none = 1 →
      ∃ t, exec (.fabRateSet c) s = .next t ∧ Completes s t 0x33 k (if r.reason = 0 then 0x00 else 0x21) (admResult r) [.contracts, .spindle]
        ∧ t.ct.fabRate = (if r.reason = 0 then fld c 8 0 22 else s.ct.fabRate) ∧ t.ct.tab = s.ct.tab) ∧
    (fld c 8 0 22 ≠ s.ct.fabRate → admBusy s = false → testSteps u none ≠ 1 →
      ∃ t, exec (.fabRateSet c) s = .next t ∧ Waits s t 0x33 k .ready [] ∧ t.sq.admRun = some { ring := c.ring, result := r, left := testSteps u none - 1 })) ∧
  (∀ (s : State) (j : JEntry) (x : AdmRun) acked reply, Takes s acked j → j.opcode = 0x33 → objKind j.cmd = 0 → j.cond = .ready → j.stage = 8 → s.sq.admRun = some x → x.left ≤ 1 →
    ∃ t, exec (.spindleStep false acked reply) s = .next t ∧ Ends s t j (if x.result.reason = 0 then 0x00 else 0x21) (admResult x.result) [.contracts] ∧ t.sq.admRun = none
      ∧ t.ct.fabRate = (if x.result.reason = 0 then fld j.cmd 8 0 22 else s.ct.fabRate) ∧ t.ct.tab = s.ct.tab) ∧
  (∀ (s : State) (c : Cmd),
    let n := objNum c
    let e := strm s n
    let X : StreamEntry := { e with genEn := fbit c 8 0, genDesc := fbit c 8 1, recEn := fbit c 8 2, algMatch := fbit c 8 3, idKind := fld c 8 4 2, histLen := fld c 9 0 7
                                    resetMs := fld c 10 0 10, genSeq := if fbit c 8 6 then BitVec.ofNat 16 (fld c 12 0 16) else e.genSeq, idVid := fld c 14 0 12, idAddr := fmac c 16 }
    let anew := (e.recEn, e.algMatch, e.histLen, e.idKind, e.idVid, e.idAddr) ≠ (X.recEn, X.algMatch, X.histLen, X.idKind, X.idVid, X.idAddr)
    let kept := e.idKind ≠ 0 ∧ ownKey e = ownKey X
    Starts s 0x34 useStreamSet c → 1 ≤ X.histLen → X.histLen ≤ 64 → 1 ≤ X.resetMs → X.resetMs ≤ 1000 → X.idKind ≠ 3 → (X.idVid ≠ 0 → X.idKind = 1) →
    (e.genEn = true → X.genEn = false → profileNames s n = false) →
    (∀ m, X.idKind ≠ 0 → findStream s (ownKey X) = some m → m ≠ n → ∃ t, exec (.streamSet c) s = .next t ∧ Completes s t 0x34 c 0x11 0 []) ∧
    (X.idKind ≠ 0 → (findStream s (ownKey X) = none ∨ findStream s (ownKey X) = some n) → takeSlot s n (ownKey X) = none → ∃ t, exec (.streamSet c) s = .next t ∧ Completes s t 0x34 c 0x20 0 []) ∧
    ((X.idKind ≠ 0 → (findStream s (ownKey X) = none ∨ findStream s (ownKey X) = some n) ∧ (takeSlot s n (ownKey X)).isSome = true) →
      ∃ t, exec (.streamSet c) s = .next t ∧ Completes s t 0x34 c 0x00 0 [.streams, .counters]
        ∧ strm t n = { X with takeAny := if anew then true else e.takeAny } ∧ (∀ k, k ≠ n → strm t k = strm s k)
        ∧ (X.idKind = 0 → ∀ a, slotOwner t a ≠ some n)
        ∧ (X.idKind ≠ 0 → kept → t.str.slot = s.str.slot)
        ∧ (X.idKind ≠ 0 → ¬ kept → ∀ a, slotOwner t a = some n ↔ takeSlot s n (ownKey X) = some a)
        ∧ (∀ a, slotOwner s a ≠ some n → slotOwner t a ≠ some n → slotOwner t a = slotOwner s a)
        ∧ (e.genEn = false → e.recEn = false → X.genEn = true ∨ X.recEn = true → ∀ a, a < 7 → tget 0 t.ctr.stream (7 * n + a) = 0)
        ∧ (∀ a, a < 7 * n ∨ 7 * n + 7 ≤ a → tget 0 t.ctr.stream a = tget 0 s.ctr.stream a)))

/-- READ with a buffer address that is a multiple of 8 and lies in its window completes DONE with RESULT equal to the length of the content image once its write is acknowledged: every byte of the buffer holds the image and every byte of memory outside it is as before, and nothing else changes but the first events that a read of counters arms again. With the acknowledgement not there yet it waits for it; a write answered with ERROR completes BAD_OPERAND with nothing outside the buffer changed. -/
def Obligations.ReadWritesTheImage : Prop :=
  ∀ (s : State) (c : Cmd),
    let o := readImage (started s 0x04 c) (objKind c) (objNum c) c.sub.toNat
    let a := fld c 8 0 64
    Starts s 0x04 useRead c → a % 8 = 0 → bufOk s c a (fld c 16 0 8) o.length = true →
    (c.writeAck = some false →
      ∃ t, exec (.read c) s = .next t ∧ Completes s t 0x04 c 0x00 (BitVec.ofNat 64 o.length) [.memory, .counters]
        ∧ (∀ i, (h : i < o.length) → memGet t.mem (a + i) = o[i])
        ∧ (∀ x, x < a ∨ a + o.length ≤ x → memGet t.mem x = memGet s.mem x)
        ∧ t.ctr.port = s.ctr.port ∧ t.ctr.stream = s.ctr.stream) ∧
    (c.writeAck = none → ∃ t, exec (.read c) s = .next t ∧ Waits s t 0x04 c .fabric []) ∧
    (c.writeAck = some true →
      ∃ t, exec (.read c) s = .next t ∧ Completes s t 0x04 c 0x11 0 [.memory, .clock] ∧ ∀ x, x < a ∨ a + o.length ≤ x → memGet t.mem x = memGet s.mem x)

/-- TEMPLATE.WRITE from a 64-byte aligned buffer, and RULE.WRITE of 1 or more rules that stay in their slice, wait for the read of the buffer where it has not come; a read error completes BAD_OPERAND. A legal template image completes DONE with that template loaded and every other as it was; another completes BAD_OPERAND. RULE.WRITE while a commit of the slice waits completes BUSY. With legal rule images, at most 16, it completes DONE with each image in its place of the standby bank; with more it writes the first 16 and waits for its next step; every other rule of either bank and the choice of the active bank are as they were. An illegal image completes BAD_OPERAND and writes none. -/
def Obligations.TemplatesAndRules : Prop :=
  ∀ (s : State) (c : Cmd),
    let a := fld c 8 0 64
    let w := fld c 16 0 8
    (Starts s 0x40 useTemplateWrite c → a % 64 = 0 → bufOk s c a w 64 = true →
      (c.reads = [] → ∃ t, exec (.templateWrite c) s = .next t ∧ Waits s t 0x40 c .fabric []) ∧
      (∀ r l, c.reads = r :: l →
        let T := BitVec.ofNat 512 (ofLe ((r.data ++ List.replicate 64 0).take 64))
        (r.error = true ∨ templateOk T = false → ∃ t, exec (.templateWrite c) s = .next t ∧ Completes s t 0x40 c 0x11 0 []) ∧
        (r.error = false → templateOk T = true →
          ∃ t, exec (.templateWrite c) s = .next t ∧ Completes s t 0x40 c 0x00 0 [.parsers]
            ∧ tget 0 t.pc.tmpl (objNum c) = T ∧ (∀ k, k ≠ objNum c → tget 0 t.pc.tmpl k = tget 0 s.pc.tmpl k) ∧ t.pc.rule = s.pc.rule))) ∧
    (let n := fld c 18 0 16
     let at_ := 4096 * (2 * (objNum c / 4096) + standby s (objNum c / 4096)) + objNum c % 4096
     Starts s 0x41 useRuleWrite c → 1 ≤ n → objNum c % 4096 + n ≤ 4096 → a % 16 = 0 → bufOk s c a w (144 * n) = true →
      (commitWaits s (objNum c / 4096) = true → ∃ t, exec (.ruleWrite c) s = .next t ∧ Completes s t 0x41 c 0x14 0 []) ∧
      (commitWaits s (objNum c / 4096) = false → c.reads = [] → ∃ t, exec (.ruleWrite c) s = .next t ∧ Waits s t 0x41 c .fabric []) ∧
      (∀ r l, commitWaits s (objNum c / 4096) = false → c.reads = r :: l →
        let o := (r.data ++ List.replicate (144 * n) 0).take (144 * n)
        (r.error = true ∨ (∃ i, i < n ∧ ruleOk (ruleImage o i) = false) → ∃ t, exec (.ruleWrite c) s = .next t ∧ Completes s t 0x41 c 0x11 0 []) ∧
        (r.error = false → (∀ i, i < n → ruleOk (ruleImage o i) = true) → n ≤ 16 →
          ∃ t, exec (.ruleWrite c) s = .next t ∧ Completes s t 0x41 c 0x00 0 [.parsers]
            ∧ (∀ i, i < n → tget {} t.pc.rule (at_ + i) = ruleImage o i) ∧ (∀ k, k < at_ ∨ at_ + n ≤ k → tget {} t.pc.rule k = tget {} s.pc.rule k)
            ∧ t.pc.active = s.pc.active ∧ t.pc.tmpl = s.pc.tmpl) ∧
        (r.error = false → (∀ i, i < n → ruleOk (ruleImage o i) = true) → 16 < n →
          ∃ t, exec (.ruleWrite c) s = .next t ∧ Waits s t 0x41 c .ready [.parsers]
            ∧ (∀ i, i < 16 → tget {} t.pc.rule (at_ + i) = ruleImage o i) ∧ (∀ k, k < at_ ∨ at_ + 16 ≤ k → tget {} t.pc.rule k = tget {} s.pc.rule k)
            ∧ t.pc.active = s.pc.active ∧ t.pc.tmpl = s.pc.tmpl)))

/-- RULE.COMMIT on rule 0 of a slice completes BUSY while another RULE.COMMIT or a RULE.WRITE of the slice is in progress. Otherwise it makes the standby bank the active one, or takes up a commit that a fault left waiting. With a frame of the old epoch in flight it waits for the drain, the rules as they were; with none it completes DONE: RESULT gives the active bank, the commit counts, the slice event EV_RULE_COMMIT is pending, and the rules are as they were but for the standby bank, which holds the active bank's rules where COPY asks for it. RULE.READ writes the 144 bytes of the named rule to the buffer and nothing outside it, once its write is acknowledged; until then it waits, and a write error completes BAD_OPERAND. -/
def Obligations.RuleCommitAndRead : Prop :=
  ∀ (s : State) (c : Cmd),
    let k := objNum c / 4096
    let act := if commitWaits s k then s.pc.active else setBitAt s.pc.active k (!s.pc.active.toNat.testBit k)
    let b := b2n (act.toNat.testBit k)
    let copy := (tget none s.pc.commit k).getD (fbit c 8 0)
    let old := (tget [] s.pc.recirc k).any (fun f => f.epoch != b)
    let busy := (∃ e ∈ s.sq.journal, e.task = false ∧ e.opcode = 0x42 ∧ objNum e.cmd / 4096 = k) ∨ ruleWriting s k = true
    (Starts s 0x42 useRuleCommit c → objNum c % 4096 = 0 → busy → ∃ t, exec (.ruleCommit c) s = .next t ∧ Completes s t 0x42 c 0x14 0 []) ∧
    (Starts s 0x42 useRuleCommit c → objNum c % 4096 = 0 → ¬ busy → old = false →
      ∃ t, exec (.ruleCommit c) s = .next t ∧ Recorded s t 0x42 c 0x00 (BitVec.ofNat 64 b) ∧ RingFrame s t c.ring ∧ Untouched ([.rings, .parsers, .counters] ++ loud) s t
        ∧ t.pc.active = act ∧ commitWaits t k = false ∧ Pends t (32 + k) 0 ∧ t.ctr = (cntSlice s k 12 1).ctr ∧ t.pc.tmpl = s.pc.tmpl
        ∧ (copy = false → t.pc.rule = s.pc.rule)
        ∧ (copy = true → (∀ i, i < 4096 → tget {} t.pc.rule (4096 * (2 * k + 1 - b) + i) = tget {} s.pc.rule (4096 * (2 * k + b) + i))
            ∧ ∀ i, i < 4096 * (2 * k + 1 - b) ∨ 4096 * (2 * k + 1 - b) + 4096 ≤ i → tget {} t.pc.rule i = tget {} s.pc.rule i)) ∧
    (Starts s 0x42 useRuleCommit c → objNum c % 4096 = 0 → ¬ busy → old = true →
      ∃ t, exec (.ruleCommit c) s = .next t ∧ Waits s t 0x42 c (.ruleDrain k) [.parsers] ∧ t.pc.active = act ∧ t.pc.rule = s.pc.rule
        ∧ tget none t.pc.commit k = some copy) ∧
    (∀ o : Octets, o = ruleBytes (rule s k (fld c 17 0 1) (objNum c % 4096)) →
     Starts s 0x43 useRuleRead c → bufOk s c (fld c 8 0 64) (fld c 16 0 8) 144 = true →
      (c.writeAck = some false →
        ∃ t, exec (.ruleRead c) s = .next t ∧ Completes s t 0x43 c 0x00 (BitVec.ofNat 64 (b2n (s.pc.active.toNat.testBit k))) [.memory]
          ∧ (∀ i, (h : i < o.length) → memGet t.mem (fld c 8 0 64 + i) = o[i])
          ∧ (∀ a, a < fld c 8 0 64 ∨ fld c 8 0 64 + o.length ≤ a → memGet t.mem a = memGet s.mem a)) ∧
      (c.writeAck = none → ∃ t, exec (.ruleRead c) s = .next t ∧ Waits s t 0x43 c .fabric []) ∧
      (c.writeAck = some true →
        ∃ t, exec (.ruleRead c) s = .next t ∧ Completes s t 0x43 c 0x11 0 [.memory, .clock]
          ∧ ∀ a, a < fld c 8 0 64 ∨ fld c 8 0 64 + o.length ≤ a → memGet t.mem a = memGet s.mem a))

/-- TABLE.INSERT with a legal destination, and STATIC in starter service: of a key in the table it completes DONE with its place, every copy taking the destination, STATIC, TOUCHED and the initial age, not held; of a key that no entry holds, whose first candidate bucket has a free slot, it completes DONE with RESULT giving that bucket, slot and no moves, the entry valid, of choice 0, with the given fields; where the first bucket is full it is the outcome of the displacement search: DONE with the place and the moves, or NO_ROOM. Every other entry is as it was. TABLE.DELETE of a key clears every copy, with their number as RESULT, and leaves the others; TABLE.LOOKUP of a key returns its entry and changes nothing; without one either completes NO_OBJECT. -/
def Obligations.StationInsertDeleteLookup : Prop :=
  ∀ (s : State) (c : Cmd),
    let u := (cands s (keyFid c) (keyMac c)).1.1
    let l := copies s (keyFid c) (keyMac c)
    (Starts s 0x50 useTableInsert c → (inStarter s = true → fbit c 18 0 = true) → destBad (fld c 16 0 16) = false →
      let E : StnEntry := { dest := BitVec.ofNat 16 (fld c 16 0 16), static := fbit c 18 0, touched := true, age := s.stn.ageInit }
      (∀ i, stnFind s (keyFid c) (keyMac c) = some i →
        ∃ t, exec (.tableInsert c) s = .next t ∧ Completes s t 0x50 c 0x00 (placeResult i 0) [.stations]
          ∧ (∀ k ∈ l, stn t k = { stn s k with dest := E.dest, static := E.static, touched := true, age := E.age, held := false }) ∧ ∀ k, k ∉ l → stn t k = stn s k) ∧
      (∀ i, stnFind s (keyFid c) (keyMac c) = none → freeSlot s u = some i →
        ∃ t, exec (.tableInsert c) s = .next t ∧ Completes s t 0x50 c 0x00 (placeResult (8 * u + i) 0) [.stations]
          ∧ (stn t (8 * u + i)).valid = true ∧ (stn t (8 * u + i)).choice = false ∧ (stn t (8 * u + i)).dest = E.dest
          ∧ (stn t (8 * u + i)).static = E.static ∧ (stn t (8 * u + i)).touched = true ∧ (stn t (8 * u + i)).age = E.age
          ∧ (stn t (8 * u + i)).q = quot (keyFid c) (keyMac c) ∧ ∀ k, k ≠ 8 * u + i → stn t k = stn s k) ∧
      (∀ x i m, stnFind s (keyFid c) (keyMac c) = none → insertKey (started s 0x50 c) (keyFid c) (keyMac c) E = (x, some (i, m)) →
        ∃ t, exec (.tableInsert c) s = .next t ∧ Completes s t 0x50 c 0x00 (placeResult i m) [.stations] ∧ t.stn = x.stn) ∧
      (∀ x, stnFind s (keyFid c) (keyMac c) = none → insertKey (started s 0x50 c) (keyFid c) (keyMac c) E = (x, none) →
        ∃ t, exec (.tableInsert c) s = .next t ∧ Completes s t 0x50 c 0x20 0 [.stations] ∧ t.stn = x.stn)) ∧
    (Starts s 0x51 useKey c → l ≠ [] →
      ∃ t, exec (.tableDelete c) s = .next t ∧ Completes s t 0x51 c 0x00 (BitVec.ofNat 64 l.length) [.stations]
        ∧ (∀ k ∈ l, stn t k = {}) ∧ ∀ k, k ∉ l → stn t k = stn s k) ∧
    (Starts s 0x51 useKey c → l = [] → ∃ t, exec (.tableDelete c) s = .next t ∧ Completes s t 0x51 c 0x13 0 []) ∧
    (Starts s 0x52 useKey c → stnFind s (keyFid c) (keyMac c) = none →
      ∃ t, exec (.tableLookup c) s = .next t ∧ Completes s t 0x52 c 0x13 0 []) ∧
    (∀ i, Starts s 0x52 useKey c → stnFind s (keyFid c) (keyMac c) = some i →
      let e := stn s i
      ∃ t, exec (.tableLookup c) s = .next t ∧ Completes s t 0x52 c 0x00
        (BitVec.ofNat 64 (e.dest.toNat + e.age * 2 ^ 16 + b2n e.static * 2 ^ 24 + b2n e.touched * 2 ^ 25 + b2n e.held * 2 ^ 26
          + b2n e.choice * 2 ^ 27 + b2n e.gen * 2 ^ 28 + i / 8 * 2 ^ 32 + i % 8 * 2 ^ 48)) [])

/-- TABLE.FLUSH removes the matching entries of the first 16 buckets whose banks are ON, leaves every other entry and waits for its next step. TABLE.REHASH to two different seeds with no rehash begun stores the new seeds, turns the target generation and enters pass 1, or goes on with a rehash begun to the same seeds (other seeds: BUSY), and works 16 buckets: it waits for its next step, completes DONE where the last pass ends, or NO_ROOM; where those first buckets hold no valid entry it waits at bucket 16 with every entry as it was. TABLE.LEARN of a port stores its learning settings, TABLE.LEARN of the table the hold-down and the export bobbin, TABLE.AGE the sweep period and initial age; each completes DONE and leaves the entries. -/
def Obligations.StationSweepsAndSettings : Prop :=
  ∀ (s : State) (c : Cmd),
    (Starts s 0x53 useTableFlush c → tableBusy s = false →
      let hit := fun (e : Nat × StnEntry) => decide (e.1 < 128) && bucketOn s (e.1 / 8) && flushMatch c e.2
      ∃ t, exec (.tableFlush c) s = .next t ∧ Waits s t 0x53 c .ready [.stations] ∧ t.stn = { s.stn with entry := s.stn.entry.filter (fun e => !hit e) }
        ∧ ∃ e ∈ t.sq.journal, e.ring = c.ring ∧ e.scratch = [(s.stn.entry.filter hit).length]) ∧
    (let a := fld c 8 0 28
     let b := fld c 12 0 28
     let u := started s 0x54 c
     let r := rehashRun 16 (if s.stn.phase = 0 then { u with stn := { s.stn with s1n := a, s2n := b, tg := !s.stn.tg, phase := 1, ptr := 0 } } else u)
     let at_ := BitVec.ofNat 64 (r.1.stn.ptr + r.1.stn.phase * 2 ^ 17)
     Starts s 0x54 useTableRehash c → a ≠ b →
      (s.stn.phase ≠ 0 → ¬(s.stn.s1n = a ∧ s.stn.s2n = b) → ∃ t, exec (.tableRehash c) s = .next t ∧ Completes s t 0x54 c 0x14 0 []) ∧
      (tableBusy s = false → (s.stn.phase ≠ 0 → s.stn.s1n = a ∧ s.stn.s2n = b) →
        (r.2 = true → ∃ t, exec (.tableRehash c) s = .next t ∧ Completes s t 0x54 c 0x20 at_ ([.stations] ++ loud) ∧ t.stn = r.1.stn) ∧
        (r.2 = false → r.1.stn.phase = 0 → ∃ t, exec (.tableRehash c) s = .next t ∧ Completes s t 0x54 c 0x00 0 ([.stations] ++ loud) ∧ t.stn = r.1.stn) ∧
        (r.2 = false → r.1.stn.phase ≠ 0 → ∃ t, exec (.tableRehash c) s = .next t ∧ Waits s t 0x54 c .ready ([.stations] ++ loud) ∧ t.stn = r.1.stn)) ∧
      (tableBusy s = false → s.stn.phase = 0 → (∀ i, i < 128 → (stn s i).valid = false) →
        ∃ t, exec (.tableRehash c) s = .next t ∧ Waits s t 0x54 c .ready [.stations]
          ∧ t.stn = { s.stn with s1n := a, s2n := b, tg := !s.stn.tg, phase := 1, ptr := 16 })) ∧
    (Starts s 0x55 useTableLearn c → objKind c = 1 → (inStarter s = true → fbit c 8 0 = false) → (fbit c 8 2 = true → (spreadGroup s (fld c 12 0 10)).size ≠ 0) →
      ∃ t, exec (.tableLearnPort c) s = .next t ∧ Completes s t 0x55 c 0x00 0 [.ports]
        ∧ pset t (objNum c) = { pset s (objNum c) with learn := { en := fbit c 8 0, perVlan := fbit c 8 1, flood := fbit c 8 2, fid := fld c 10 0 12, floodGroup := fld c 12 0 10 } }
        ∧ (∀ q, q ≠ objNum c → pset t q = pset s q) ∧ t.port = { s.port with set := t.port.set }) ∧
    (let k := asObj c 0x0A 0 0
     let b := fld c 12 0 18
     Starts s 0x55 useTableLearn k → 1 ≤ fld c 8 0 16 → fld c 8 0 16 ≤ 1000 → (fld c 8 0 16 = s.stn.h ∨ learningAny s = false) →
      (fbit c 10 0 = false → ∃ t, exec (.tableLearnTable c) s = .next t ∧ Completes s t 0x55 k 0x00 0 [.stations] ∧ t.stn = { s.stn with h := fld c 8 0 16, exportEn := false }) ∧
      (fbit c 10 0 = true → (bobn s b).st = .opened → (bobn s b).kind = .completion →
        (∀ e ∈ s.bob.tab, e.2.st ≠ .closed → e.2.kind ≠ .completion → e.2.completion ≠ b) →
        ∃ t, exec (.tableLearnTable c) s = .next t ∧ Completes s t 0x55 k 0x00 0 [.stations] ∧ t.stn = { s.stn with h := fld c 8 0 16, exportEn := true, exportBob := b })) ∧
    (Starts s 0x56 useTableAge c → fld c 10 0 8 ≠ 0 →
      ∃ t, exec (.tableAge c) s = .next t ∧ Completes s t 0x56 c 0x00 0 [.stations]
        ∧ t.stn = { s.stn with period := fld c 8 0 16, ageInit := fld c 10 0 8, ageDue := if fld c 8 0 16 = s.stn.period then s.stn.ageDue else s.tm.count * 65536 })

/-- Outside starter service, on an instance that follows no other, TIME.SET with NS below 10^9, TIME.ADJUST with a step of 1 to 2^47 ns either way, TIME.ADJUST with a slew of at most 10^9 ns and a legal speed (any speed for an offset of 0), and TIME.RATE within 1,000 ppm each append their change to those that wait for the realignment boundary and wait for it; nothing else of the time unit changes. A step of 0 completes DONE_NOTE. After the boundary the instruction's next step completes it DONE with the RESULT of its change. On an instance that follows another each completes BUSY. -/
def Obligations.TimeChangesWaitForTheBoundary : Prop :=
  (∀ (s : State) (c : Cmd), inStarter s = false → followsTime s = false →
    (Starts s 0x60 useTimeSet c → fld c 8 16 30 ≤ 999999999 →
      ∃ t, exec (.timeSet c) s = .next t ∧ Waits s t 0x60 c .boundary [.timeUnit]
        ∧ t.tu = { s.tu with pend := s.tu.pend ++ [(c.ring, .set { sec := fld c 8 48 48, ns := fld c 8 16 30, frac := fld c 8 0 16 })] }) ∧
    (Starts s 0x61 useTimeAdjust c → c.sub = 0 → adjOffset c ≠ 0 → (adjOffset c).natAbs ≤ 2 ^ 63 →
      ∃ t, exec (.timeAdjustStep c) s = .next t ∧ Waits s t 0x61 c .boundary [.timeUnit]
        ∧ t.tu = { s.tu with pend := s.tu.pend ++ [(c.ring, .step (adjOffset c))] }) ∧
    (Starts s 0x61 useTimeAdjust c → c.sub = 0 → adjOffset c = 0 → ∃ t, exec (.timeAdjustStep c) s = .next t ∧ Completes s t 0x61 c 0x02 0 []) ∧
    (Starts s 0x61 useTimeAdjust { c with sub := 1 } → (adjOffset c).natAbs ≤ 65536000000000 → (adjOffset c ≠ 0 → 1 ≤ fld c 20 0 32 ∧ fld c 20 0 32 ≤ 4294967) →
      ∃ t, exec (.timeAdjustSlew c) s = .next t ∧ Waits s t 0x61 { c with sub := 1 } .boundary [.timeUnit]
        ∧ t.tu = { s.tu with pend := s.tu.pend ++ [(c.ring, .slew (adjOffset c) (fld c 20 0 32))] }) ∧
    (Starts s 0x62 useTimeRate c → (sgn 32 (fld c 8 0 32)).natAbs ≤ 4294967 →
      ∃ t, exec (.timeRate c) s = .next t ∧ Waits s t 0x62 c .boundary [.timeUnit]
        ∧ t.tu = { s.tu with pend := s.tu.pend ++ [(c.ring, .rate (sgn 32 (fld c 8 0 32)))] })) ∧
  (∀ (s : State) (c : Cmd), inStarter s = true ∨ followsTime s = true →
    (Starts s 0x60 useTimeSet c → fld c 8 16 30 ≤ 999999999 → ∃ t, exec (.timeSet c) s = .next t ∧ Completes s t 0x60 c 0x14 0 []) ∧
    (Starts s 0x61 useTimeAdjust c → c.sub = 0 → (adjOffset c).natAbs ≤ 2 ^ 63 → ∃ t, exec (.timeAdjustStep c) s = .next t ∧ Completes s t 0x61 c 0x14 0 []) ∧
    (Starts s 0x61 useTimeAdjust { c with sub := 1 } → (adjOffset c).natAbs ≤ 65536000000000 → (adjOffset c ≠ 0 → 1 ≤ fld c 20 0 32 ∧ fld c 20 0 32 ≤ 4294967) →
      ∃ t, exec (.timeAdjustSlew c) s = .next t ∧ Completes s t 0x61 { c with sub := 1 } 0x14 0 []) ∧
    (Starts s 0x62 useTimeRate c → (sgn 32 (fld c 8 0 32)).natAbs ≤ 4294967 → ∃ t, exec (.timeRate c) s = .next t ∧ Completes s t 0x62 c 0x14 0 [])) ∧
  (∀ (s : State) (j : JEntry) acked reply, Takes s acked j → (j.opcode = 0x60 ∨ j.opcode = 0x61 ∨ j.opcode = 0x62) → j.stage = 1 → j.cond = .boundary →
    ∃ t, exec (.spindleStep false acked reply) s = .next t ∧ Ends s t j 0x00 (tget 0 s.tu.result j.ring) [])

/-- At a TU cycle whose count is a multiple of 1,024, with one change waiting: TIME.SET loads the time, clears sub and the slew; a step adds its offset to the time and leaves the slew; both raise EV_TU_STEP. A slew sets the amount left, its speed and direction (an offset of 0 ends the slew in progress) and returns the remainder of the one it replaces; a rate change sets the rate and returns the old one; the end of starter service loads the starter counter's time, raises EV_STARTER_EXIT (63, 17) and ends starter service. No change waits afterwards, and every shadow is realigned. Everything but the time unit is unchanged, apart from what a raise does. -/
def Obligations.BoundaryAppliesTheChange : Prop :=
  ∀ (s : State) (r : Nat), isOn s dTU = true → s.tu.cycles % 1024 = 0 → s.ic.wakeHit = none →
    (s.tu.pend = [] → ∃ t, exec .realignmentBoundary s = .next t ∧ Untouched [.timeUnit] s t ∧ t.tu = { s.tu with shadow := [] }) ∧
    (∀ x : T96, s.tu.pend = [(r, .set x)] → ∃ t, exec .realignmentBoundary s = .next t ∧ Untouched (.timeUnit :: loud) s t ∧ Pends t 49 2
      ∧ ({ sec := t.tu.sec, ns := t.tu.ns, frac := t.tu.sub / 2 ^ 32 } : T96) = nT96 (t96n x) ∧ t.tu.sub % 2 ^ 32 = 0
      ∧ t.tu.slewLeft = 0 ∧ t.tu.stepped = true ∧ t.tu.pend = []) ∧
    (∀ o : Int, s.tu.pend = [(r, .step o)] → ∃ t, exec .realignmentBoundary s = .next t ∧ Untouched (.timeUnit :: loud) s t ∧ Pends t 49 2
      ∧ ({ sec := t.tu.sec, ns := t.tu.ns, frac := t.tu.sub / 2 ^ 32 } : T96) = nT96 (tuNow s.tu + o) ∧ t.tu.slewLeft = s.tu.slewLeft
      ∧ tget 0 t.tu.result r = tuT64 t.tu ∧ t.tu.stepped = true ∧ t.tu.pend = []) ∧
    (∀ (o : Int) (mag : Nat), s.tu.pend = [(r, .slew o mag)] → o ≠ 0 → ∃ t, exec .realignmentBoundary s = .next t
      ∧ Untouched [.timeUnit] s t ∧ t.tu.slewLeft = o.natAbs * 2 ^ 32 ∧ t.tu.slewMag = mag ∧ t.tu.slewNeg = decide (o < 0) ∧ t.tu.slewing = true
      ∧ tget 0 t.tu.result r = ofInt 64 (if s.tu.slewNeg then -((s.tu.slewLeft / 2 ^ 32 : Nat) : Int) else ((s.tu.slewLeft / 2 ^ 32 : Nat) : Int))
      ∧ t.tu.sec = s.tu.sec ∧ t.tu.ns = s.tu.ns ∧ t.tu.sub = s.tu.sub ∧ t.tu.pend = []) ∧
    (∀ mag : Nat, s.tu.pend = [(r, .slew 0 mag)] → ∃ t, exec .realignmentBoundary s = .next t
      ∧ Untouched [.timeUnit] s t ∧ t.tu.slewLeft = 0 ∧ t.tu.slewMag = s.tu.slewMag ∧ t.tu.slewNeg = s.tu.slewNeg ∧ t.tu.slewing = false
      ∧ tget 0 t.tu.result r = ofInt 64 (if s.tu.slewNeg then -((s.tu.slewLeft / 2 ^ 32 : Nat) : Int) else ((s.tu.slewLeft / 2 ^ 32 : Nat) : Int))
      ∧ t.tu.sec = s.tu.sec ∧ t.tu.ns = s.tu.ns ∧ t.tu.sub = s.tu.sub ∧ t.tu.pend = []) ∧
    (s.tu.pend = [(r, .starter)] → ∃ t, exec .realignmentBoundary s = .next t ∧ Untouched ([.timeUnit, .starter, .ports] ++ loud) s t ∧ Pends t 49 2 ∧ Pends t 63 17
      ∧ ({ sec := t.tu.sec, ns := t.tu.ns, frac := t.tu.sub / 2 ^ 32 } : T96) = nT96 s.st0.t ∧ t.st0 = { s.st0 with running := false }
      ∧ t.pw.starter = false ∧ t.port = { s.port with starterPort := 0 } ∧ t.tu.stepped = true ∧ t.tu.pend = []) ∧
    (∀ x : Int, s.tu.pend = [(r, .rate x)] → ∃ t, exec .realignmentBoundary s = .next t ∧ Untouched [.timeUnit] s t
      ∧ t.tu.rate = x ∧ tget 0 t.tu.result r = BitVec.ofNat 64 (ofInt 32 s.tu.rate).toNat ∧ t.tu.sub = s.tu.sub ∧ t.tu.slewLeft = s.tu.slewLeft ∧ t.tu.pend = [])

/-- With TU ON: REF_LOSS, 16 TU cycles or more after the reference came, enters HOLDOVER and raises EV_TU_REF_LOSS, REF_OK, 1,024 or more after it went, leaves it and raises EV_TU_REF_OK, neither steps the time; the slew reaching zero raises EV_TU_SLEW_DONE; PPS_OUT rises when the time has reached a whole second plus offset, while enabled and allowed, with EV_TU_PPS_OUT, and falls after its width; PPS_IN captures the TU time less 3 ns and raises EV_TU_PPS_IN. TIME.PPS sub-id 0 with a width of 1 to 999,999 us and an offset of at most 499,999,999 ns either way completes DONE and stores enable, ALWAYS, width and offset; sub-id 1 stores the enable of PPS_IN; the time itself is unchanged. STARTER_TRIM, 1,024 AO cycles after the last, puts the base of the starter counter 40,960 ns on. -/
def Obligations.ReferenceSlewPulsesAndTrim : Prop :=
  (∀ s : State,
    (isOn s dTU = true → s.tu.holdover = false → s.tu.refAt + 16 ≤ s.tu.cycles →
      ∃ t, exec .refLoss s = .next t ∧ t.tu = { s.tu with holdover := true, refAt := s.tu.cycles } ∧ Pends t 49 0 ∧ Untouched (.timeUnit :: loud) s t) ∧
    (isOn s dTU = true → s.tu.holdover = true → s.tu.refAt + 1024 ≤ s.tu.cycles →
      ∃ t, exec .refOk s = .next t ∧ t.tu = { s.tu with holdover := false, refAt := s.tu.cycles } ∧ Pends t 49 1 ∧ Untouched (.timeUnit :: loud) s t) ∧
    (isOn s dTU = true → s.tu.slewLeft = 0 → s.tu.slewing = true →
      ∃ t, exec .slewDone s = .next t ∧ t.tu = { s.tu with slewing := false } ∧ Pends t 49 3 ∧ Untouched (.timeUnit :: loud) s t) ∧
    (isOn s dTU = true → (ppsInForce s).en = true → s.tu.ppsOut = false → ppsAllowed s = true → s.tu.ppsDue = true →
      ∃ t, exec .ppsOutRise s = .next t ∧ t.tu = { s.tu with ppsOut := true, ppsDue := false, ppsRise := s.tm.now, ppsNowWidth := (ppsInForce s).width } ∧ Pends t 49 4 ∧ Untouched (.timeUnit :: loud) s t) ∧
    (s.ic.wakeHit = none → s.tu.ppsOut = true → s.tu.ppsRise + s.tu.ppsNowWidth * 1000 ≤ s.tm.now →
      ∃ t, exec .ppsOutFall s = .next t ∧ t.tu = { s.tu with ppsOut := false } ∧ Untouched [.timeUnit] s t) ∧
    (isOn s dTU = true → s.tu.ppsInEn = true → (∀ x ∈ s.tu.captureAt, x + 100000 ≤ s.tm.now) →
      ∃ t, exec .ppsInCapture s = .next t ∧ t.tu = { s.tu with capture := nT96 (tuNow s.tu - 3 * 65536), captureAt := some s.tm.now }
        ∧ Pends t 49 5 ∧ Untouched (.timeUnit :: loud) s t)) ∧
  (∀ (s : State) (c : Cmd),
    (Starts s 0x63 useTimePps c → c.sub = 0 → 1 ≤ fld c 12 0 32 → fld c 12 0 32 ≤ 999999 → (sgn 32 (fld c 16 0 32)).natAbs ≤ 499999999 →
      ∃ t, exec (.ppsOutSet c) s = .next t ∧ Completes s t 0x63 c 0x00 0 [.timeUnit]
        ∧ t.tu = { s.tu with pps := { en := fbit c 8 0, always := fbit c 8 1, width := fld c 12 0 32, offset := sgn 32 (fld c 16 0 32) }
                             ppsPrev := ppsInForce s, ppsSetAt := some s.tm.now }) ∧
    (Starts s 0x63 useTimePps { c with sub := 1 } →
      ∃ t, exec (.ppsInSet c) s = .next t ∧ Completes s t 0x63 { c with sub := 1 } 0x00 0 [.timeUnit] ∧ t.tu = { s.tu with ppsInEn := fbit c 8 0 }) ∧
    (s.ic.wakeHit = none → s.st0.running = true → s.st0.trimAt + 40960 ≤ s.tm.now →
      ∃ t, exec .starterTrim s = .next t ∧ Untouched [.starter] s t ∧ t.st0.trimAt = s.st0.trimAt + 40960
        ∧ t.st0.trimT = s.st0.trimT + 40960 * 65536 ∧ t.st0.t = t.st0.trimT + (s.tm.now - t.st0.trimAt) * 2 / 5 * 163840))

/-- While TU is ON or starter service runs, an 8-byte read of TU_NOW_LO is served with bits 63 to 0 of the T96 time and latches bits 95 to 64 into TU_NOW_HI. While TU is ON, an 8-byte read of TU_PPS_CAPTURE_LO is served with the low bits of the capture and latches its high bits. A shorter read of either is served with zero; with its unit not there a read is answered as absent. Nothing else changes. -/
def Obligations.TimeReadouts : Prop :=
  ∀ s : State, s.ic.wakeHit = none →
    (s.st0.running = true ∨ isOn s dTU = true →
      (∃ t, exec (.tuNowRead 0xFF) s = .next t ∧ t.reg = { resp := .served, data := [BitVec.ofNat 64 (t96bits (nowT s))] }
        ∧ t.tm = { s.tm with nowHi := BitVec.ofNat 32 (t96bits (nowT s) / 2 ^ 64) } ∧ Untouched [.clock, .regPort] s t) ∧
      (∀ b : BitVec 8, b ≠ 0xFF → ∃ t, exec (.tuNowRead b) s = .next t ∧ t.reg = { resp := .served, data := [0] } ∧ Untouched [.regPort] s t)) ∧
    (s.st0.running = false → isOn s dTU = false → ∀ b : BitVec 8, ∃ t, exec (.tuNowRead b) s = .next t ∧ t.reg = { resp := .absent, data := [0] } ∧ Untouched [.regPort] s t) ∧
    (isOn s dTU = true →
      (∃ t, exec (.tuPpsCaptureRead 0xFF) s = .next t ∧ t.reg = { resp := .served, data := [BitVec.ofNat 64 (t96bits s.tu.capture)] }
        ∧ t.tu = { s.tu with captureHi := BitVec.ofNat 32 (t96bits s.tu.capture / 2 ^ 64) } ∧ Untouched [.timeUnit, .regPort] s t) ∧
      (∀ b : BitVec 8, b ≠ 0xFF → ∃ t, exec (.tuPpsCaptureRead b) s = .next t ∧ t.reg = { resp := .served, data := [0] } ∧ Untouched [.regPort] s t)) ∧
    (isOn s dTU = false → ∀ b : BitVec 8, ∃ t, exec (.tuPpsCaptureRead b) s = .next t ∧ t.reg = { resp := .absent, data := [0] } ∧ Untouched [.regPort] s t)

/-- While the MAC domain of the port is ON, an 8-byte read of TSQ_POP_LO with entries in the queue is served with the oldest entry, removes it and latches its FRAC and SEC into TSQ_POP_HI; with the queue empty it returns all zeros and leaves TSQ_POP_HI. A shorter read returns zeros and leaves the queue; with the domain not ON a read is answered as absent. Other ports are unchanged. -/
def Obligations.TsqPop : Prop :=
  ∀ (s : State) (p : Nat), s.ic.wakeHit = none →
    (∀ e l, isOn s (dMS (sliceOf p)) = true → (line s p).tsq = e :: l →
      ∃ t, exec (.tsqPop p 0xFF) s = .next t ∧ t.reg = { resp := .served, data := [tsqLo e] }
        ∧ LineIs s t p { line s p with tsq := l, tsqHi := BitVec.ofNat 64 (e.t.frac + e.t.sec * 2 ^ 16) } ∧ Untouched [.ports, .regPort] s t) ∧
    (isOn s (dMS (sliceOf p)) = true → (line s p).tsq = [] →
      ∃ t, exec (.tsqPop p 0xFF) s = .next t ∧ t.reg = { resp := .served, data := [0] } ∧ Untouched [.regPort] s t) ∧
    (∀ b : BitVec 8, isOn s (dMS (sliceOf p)) = true → b ≠ 0xFF →
      ∃ t, exec (.tsqPop p b) s = .next t ∧ t.reg = { resp := .served, data := [0] } ∧ Untouched [.regPort] s t) ∧
    (∀ b : BitVec 8, isOn s (dMS (sliceOf p)) = false →
      ∃ t, exec (.tsqPop p b) s = .next t ∧ t.reg = { resp := .absent, data := [0] } ∧ Untouched [.regPort] s t)

/-- IRQ.ROUTE sets the priority and target set of a group, IRQ.MODERATE its hold-off, IRQ.WAKE its wake flag (a flag beyond 16 wake-capable groups completes NO_ROOM), FILTER.SET with a length that is not 0 the length and enable of one EVT_IN filter, whose level stays only where it was and remains enabled (length 0 completes BAD_OPERAND). Each completes DONE. The rest of the group, its pending bits, its gate and its enables among it, and every other group are as they were. -/
def Obligations.IrqSettings : Prop :=
  ∀ (s : State) (c : Cmd),
    let g := objNum c
    (Starts s 0xC0 useIrqRoute c → ∃ t, exec (.irqRoute c) s = .next t ∧ Completes s t 0xC0 c 0x00 0 [.irq]
      ∧ grp t g = { grp s g with prio := BitVec.ofNat 4 (fld c 8 0 4), targets := BitVec.ofNat 5 (fld c 9 0 5) } ∧ ∀ h, h ≠ g → grp t h = grp s h) ∧
    (Starts s 0xC1 useIrqModerate c → ∃ t, exec (.irqModerate c) s = .next t ∧ Completes s t 0xC1 c 0x00 0 [.irq]
      ∧ grp t g = { grp s g with holdoff := c.ops.setWidth 16 } ∧ ∀ h, h ≠ g → grp t h = grp s h) ∧
    (Starts s 0xC2 useIrqWake c → (fbit c 8 0 = true → (grp s g).wake = false → wakeGroups s < 16) → ∃ t, exec (.irqWake c) s = .next t ∧ Completes s t 0xC2 c 0x00 0 [.irq]
      ∧ grp t g = { grp s g with wake := fbit c 8 0 } ∧ ∀ h, h ≠ g → grp t h = grp s h) ∧
    (Starts s 0xC2 useIrqWake c → fbit c 8 0 = true → (grp s g).wake = false → 16 ≤ wakeGroups s → ∃ t, exec (.irqWake c) s = .next t ∧ Completes s t 0xC2 c 0x20 0 []) ∧
    (Starts s 0xC3 useFilterSet c → fld c 8 0 8 ≠ 0 → ∃ t, exec (.filterSet c) s = .next t ∧ Completes s t 0xC3 c 0x00 0 [.irq]
      ∧ (flt t c.sub.toNat).len = c.ops.setWidth 8 ∧ (flt t c.sub.toNat).en = fbit c 9 0
      ∧ (flt t c.sub.toNat).level = (fbit c 9 0 && (flt s c.sub.toNat).en && (flt s c.sub.toNat).level)
      ∧ (flt t c.sub.toNat).since = (if (flt s c.sub.toNat).en then (flt s c.sub.toNat).since else s.tm.now)
      ∧ (∀ n, n ≠ c.sub.toNat → flt t n = flt s n) ∧ ∀ h, grp t h = grp s h) ∧
    (Starts s 0xC3 useFilterSet c → fld c 8 0 8 = 0 → ∃ t, exec (.filterSet c) s = .next t ∧ Completes s t 0xC3 c 0x11 0 [])

/-- While the register port is open and the group table is in canonical form: with a source presentable to the host, an 8-byte read of IC_CLAIM_n returns a presentable source and its priority such that every presentable source has a lower priority, or the same priority and no lower id; that source is no longer pending and stands in the in-service set with its priority, and its gate stays as it was. With none presentable the read returns 0x7FF and changes nothing else. A shorter read returns zero and changes nothing; with the port closed it is answered as absent. -/
def Obligations.ClaimTakesTheHighest : Prop :=
  ∀ (s : State) (h : Nat), s.ic.wakeHit = none → twf {} s.ic.group = true →
    (aonOpen s = true → (∃ g n, n < 32 ∧ presentable s h g n = true) →
      ∃ t src p, exec (.claim h 0xFF) s = .next t ∧ t.reg = { resp := .served, data := [BitVec.ofNat 64 (src + p * 2 ^ 11)] }
        ∧ presentable s h (src / 32) (src % 32) = true ∧ p = (grp s (src / 32)).prio.toNat
        ∧ (∀ g n, n < 32 → presentable s h g n = true → (grp s g).prio.toNat < p ∨ ((grp s g).prio.toNat = p ∧ src ≤ 32 * g + n))
        ∧ ¬ Pends t (src / 32) (src % 32) ∧ (grp t (src / 32)).gateOpen = (grp s (src / 32)).gateOpen ∧ (∀ g, g ≠ src / 32 → grp t g = grp s g)
        ∧ tgt t h = { tgt s h with service := (src, p) :: (tgt s h).service } ∧ (∀ k, k ≠ h → tgt t k = tgt s k)
        ∧ Untouched [.irq, .regPort] s t) ∧
    (aonOpen s = true → (∀ g n, n < 32 → presentable s h g n = false) →
      ∃ t, exec (.claim h 0xFF) s = .next t ∧ t.reg = { resp := .served, data := [0x7FF] } ∧ Untouched [.regPort] s t) ∧
    (∀ b : BitVec 8, aonOpen s = true → b ≠ 0xFF → ∃ t, exec (.claim h b) s = .next t ∧ t.reg = { resp := .served, data := [0] } ∧ Untouched [.regPort] s t) ∧
    (∀ b : BitVec 8, aonOpen s = false → ∃ t, exec (.claim h b) s = .next t ∧ t.reg = { resp := .absent, data := [0] } ∧ Untouched [.regPort] s t)

/-- While the register port is open, an 8-byte write of a source id in the in-service set of the host removes it from that set; a write of another id leaves the set and sets EOI_ERR; a write of 0x7FF changes neither. Every group and the other hosts are unchanged. A shorter write changes nothing; with the port closed it is answered as absent. -/
def Obligations.EndOfInterrupt : Prop :=
  ∀ (s : State) (h : Nat) (src : BitVec 11), s.ic.wakeHit = none →
    (aonOpen s = true →
      ∃ t, exec (.endOfInterrupt h src 0xFF) s = .next t ∧ t.reg = { resp := .served, data := [] } ∧ Untouched [.irq, .regPort] s t
      ∧ (∀ k, k ≠ h → tgt t k = tgt s k) ∧ (∀ g, grp t g = grp s g)
      ∧ (src = 0x7FF → tgt t h = tgt s h)
      ∧ (src ≠ 0x7FF → (tgt s h).service.any (fun e => e.1 == src.toNat) = true →
          tgt t h = { tgt s h with service := (tgt s h).service.filter (fun e => e.1 != src.toNat) })
      ∧ (src ≠ 0x7FF → (tgt s h).service.any (fun e => e.1 == src.toNat) = false → tgt t h = { tgt s h with eoiErr := true })) ∧
    (∀ b : BitVec 8, aonOpen s = true → b ≠ 0xFF →
      ∃ t, exec (.endOfInterrupt h src b) s = .next t ∧ t.reg = { resp := .served, data := [] } ∧ Untouched [.regPort] s t) ∧
    (∀ b : BitVec 8, aonOpen s = false →
      ∃ t, exec (.endOfInterrupt h src b) s = .next t ∧ t.reg = { resp := .absent, data := [] } ∧ Untouched [.regPort] s t)

/-- In step 4 of an AO cycle a closed gate whose group has a pending enabled source, and whose hold-off count has reached K or that a held sleep vote forces, opens and notes the instant; at the edge an open gate with no pending enabled source closes, and one with such a source stays open. In step 4 a held sleep vote with nothing to hold it is granted. A level held for the length of an enabled EVT_IN filter is accepted: a rise raises its event, a fall raises none. The T4 pending bit of the claimed source clears and its service routine joins the step queue. -/
def Obligations.GatesVotesAndInputs : Prop :=
  ∀ s : State, s.ic.wakeHit = none →
    (∀ g, aoEnd s = true → (grp s g).gateOpen = false → (grp s g).pend &&& (grp s g).en ≠ 0 → holdK (grp s g) ≤ holdCount s (grp s g) ∨ forcedOpen s g = true →
      ∃ t, exec (.gateOpen g) s = .next t ∧ grp t g = { grp s g with gateOpen := true, lastOpen := some s.tm.now } ∧ (∀ h, h ≠ g → grp t h = grp s h) ∧ Untouched [.irq] s t) ∧
    (s.pending = [] → aoEnd s = true →
      ∃ t, step s = .next t ∧ ∀ g, (grp s g).gateOpen = true → (((grp s g).pend &&& (grp s g).en = 0 → (grp t g).gateOpen = false)
        ∧ ((grp s g).pend &&& (grp s g).en ≠ 0 → (grp t g).gateOpen = true))) ∧
    (∀ h, aoEnd s = true → (tgt s h).sleepHeld = true → sleepHolders s h = [] →
      ∃ t, exec (.sleepVoteGranted h) s = .next t ∧ tgt t h = { tgt s h with sleepHeld := false, sleepGranted := true } ∧ (∀ k, k ≠ h → tgt t k = tgt s k)
        ∧ Untouched [.irq] s t) ∧
    (∀ n, n < 16 → (flt s n).en = true → (flt s n).level = false → aonOpen s = true → aoCycle (flt s n).since + (flt s n).len.toNat ≤ aoCycle s.tm.now →
      ∃ t, exec (.evtInAccepted n true) s = .next t ∧ flt t n = { flt s n with level := true, since := s.tm.now } ∧ Pends t 63 n) ∧
    (∀ n, (flt s n).en = true → (flt s n).level = true → aonOpen s = true → aoCycle (flt s n).since + (flt s n).len.toNat ≤ aoCycle s.tm.now →
      ∃ t, exec (.evtInAccepted n false) s = .next t ∧ flt t n = { flt s n with level := false, since := s.tm.now } ∧ t.ic.lastRaise = s.ic.lastRaise
        ∧ (∀ g, grp t g = grp s g) ∧ Untouched [.irq] s t) ∧
    (∀ src, s.sq.t4Claim = some src →
      ∃ t e, exec .t4PendingClear s = .next t ∧ (grp t (src / 32)).t4.toNat.testBit (src % 32) = false ∧ (grp t (src / 32)).pend = (grp s (src / 32)).pend
        ∧ t.sq.journal = s.sq.journal ++ [e] ∧ e.task = true ∧ e.stage = src ∧ e.opcode = 0x1000)

/-- POWER.VOTE on a switched domain on which the ring holds no vote sets the vote of that ring; with the domain ON it completes DONE, and with the domain neither ON nor FAILED it waits for it; on a FAILED one it completes POWER_FAILED and on domain 63 BAD_OPERAND, and takes no vote. A vote already held completes DONE_NOTE. POWER.UNVOTE of a held vote completes DONE with that vote gone; of none it completes DONE_NOTE. The votes of other rings and on other domains are unchanged, and so is everything else of power but the domains themselves. -/
def Obligations.PowerVotes : Prop :=
  ∀ (s : State) (c : Cmd),
    let d := objNum c
    (Starts s 0x70 useNone c → ringVote s c.ring d = false → d ≠ 63 → isFailed s d = false → isOn s d = true →
      ∃ t, exec (.powerVote c) s = .next t ∧ Completes s t 0x70 c 0x00 0 [.power]
        ∧ tget 0 t.pw.vote d = setBitAt (tget 0 s.pw.vote d) c.ring true ∧ (∀ x, x ≠ d → tget 0 t.pw.vote x = tget 0 s.pw.vote x)
        ∧ t.pw = { s.pw with dom := t.pw.dom, vote := t.pw.vote, sleepSet := t.pw.sleepSet }) ∧
    (Starts s 0x70 useNone c → ringVote s c.ring d = false → d ≠ 63 → isFailed s d = false → isOn s d = false →
      ∃ t, exec (.powerVote c) s = .next t ∧ Waits s t 0x70 c (.domains [d]) [.power]
        ∧ tget 0 t.pw.vote d = setBitAt (tget 0 s.pw.vote d) c.ring true ∧ (∀ x, x ≠ d → tget 0 t.pw.vote x = tget 0 s.pw.vote x)) ∧
    (Starts s 0x70 useNone c → ringVote s c.ring d = false → d ≠ 63 → isFailed s d = true →
      ∃ t, exec (.powerVote c) s = .next t ∧ Completes s t 0x70 c 0x40 0 []) ∧
    (Starts s 0x70 useNone c → ringVote s c.ring d = false → d = 63 → ∃ t, exec (.powerVote c) s = .next t ∧ Completes s t 0x70 c 0x11 0 []) ∧
    (Starts s 0x70 useNone c → ringVote s c.ring d = true → ∃ t, exec (.powerVote c) s = .next t ∧ Completes s t 0x70 c 0x02 0 []) ∧
    (Starts s 0x71 useNone c → ringVote s c.ring d = true →
      ∃ t, exec (.powerUnvote c) s = .next t ∧ Completes s t 0x71 c 0x00 0 [.power]
        ∧ tget 0 t.pw.vote d = setBitAt (tget 0 s.pw.vote d) c.ring false ∧ (∀ x, x ≠ d → tget 0 t.pw.vote x = tget 0 s.pw.vote x)
        ∧ t.pw = { s.pw with dom := t.pw.dom, vote := t.pw.vote, sleepSet := t.pw.sleepSet }) ∧
    (Starts s 0x71 useNone c → ringVote s c.ring d = false → ∃ t, exec (.powerUnvote c) s = .next t ∧ Completes s t 0x71 c 0x02 0 [])

/-- POWER.SLEEP casting the vote of a host grants it where nothing pending holds it, and holds it otherwise; its RESULT says whether this vote completes the conditions of sleep. A vote granted before stays. Withdrawing a vote clears it. POWER.RETAIN stores both masks. POWER.WAKESRC sub-id 0 stores the wake masks and the timer, sub-id 1 returns kind and number of the last wake source and changes nothing, and on a port it stores the wake-frame filter when its offset is at most 248, and completes BAD_OPERAND beyond. Each else completes DONE. -/
def Obligations.SleepAndWakeSettings : Prop :=
  ∀ (s : State) (c : Cmd),
    let h := fld c 8 0 2
    let u := castSleep (started s 0x72 c) h
    (Starts s 0x72 usePowerSleep c → fbit c 9 0 = true → (tgt s h).sleepGranted = false →
      ∃ t, exec (.powerSleep c) s = .next t ∧ Completes s t 0x72 c 0x00 (BitVec.ofNat 64 (b2n (hostsAsleep u && sleepIdle u (some c.ring)))) [.irq]
        ∧ (sleepHolders s h = [] → tgt t h = { tgt s h with sleepHeld := false, sleepGranted := true })
        ∧ (sleepHolders s h ≠ [] → tgt t h = { tgt s h with sleepHeld := true }) ∧ ∀ k, k ≠ h → tgt t k = tgt s k) ∧
    (Starts s 0x72 usePowerSleep c → fbit c 9 0 = true → (tgt s h).sleepGranted = true → ∃ t, exec (.powerSleep c) s = .next t ∧ Completes s t 0x72 c 0x00 0 []) ∧
    (Starts s 0x72 usePowerSleep c → fbit c 9 0 = false →
      ∃ t, exec (.powerSleep c) s = .next t ∧ Completes s t 0x72 c 0x00 0 [.irq]
        ∧ tgt t h = { tgt s h with sleepHeld := false, sleepGranted := false } ∧ ∀ k, k ≠ h → tgt t k = tgt s k) ∧
    (Starts s 0x73 usePowerRetain c → ∃ t, exec (.powerRetain c) s = .next t ∧ Completes s t 0x73 c 0x00 0 [.power]
      ∧ t.pw = { s.pw with dom := t.pw.dom, sleepSet := t.pw.sleepSet, retainMask := c.ops.setWidth 24, releaseMask := BitVec.ofNat 16 (fld c 12 0 16) }) ∧
    (Starts s 0x74 useWakesrc c → objKind c = 0 → c.sub = 0 → ∃ t, exec (.powerWakesrcSet c) s = .next t ∧ Completes s t 0x74 c 0x00 0 [.power]
      ∧ t.pw = { s.pw with dom := t.pw.dom, sleepSet := t.pw.sleepSet, linkMask := c.ops.setWidth 32, frameMask := BitVec.ofNat 32 (fld c 12 0 32)
                           evtMask := BitVec.ofNat 16 (fld c 16 0 16), timerEn := fbit c 18 0, timerMs := BitVec.ofNat 32 (fld c 20 0 32) }) ∧
    (Starts s 0x74 useWakesrc (asObj c 0 0 1) → ∃ t, exec (.powerWakesrcQuery c) s = .next t
      ∧ Completes s t 0x74 (asObj c 0 0 1) 0x00 (BitVec.ofNat 64 (s.pw.lastWake.kind + s.pw.lastWake.num * 256)) []) ∧
    (let k := asObj c 1 (objNum c) 0
     Starts s 0x74 useWakesrc k → objNum c < 32 →
      (fld c 24 0 8 ≤ 248 → ∃ t, exec (.wakeFrameFilterSet c) s = .next t ∧ Completes s t 0x74 k 0x00 0 [.ports]
        ∧ pset t (objNum c) = { pset s (objNum c) with wake := { pattern := c.ops.setWidth 64, mask := BitVec.ofNat 64 (fld c 16 0 64), offset := fld c 24 0 8, en := fbit c 25 0 } }
        ∧ (∀ q, q ≠ objNum c → pset t q = pset s q) ∧ t.port = { s.port with set := t.port.set }) ∧
      (248 < fld c 24 0 8 → ∃ t, exec (.wakeFrameFilterSet c) s = .next t ∧ Completes s t 0x74 k 0x11 0 []))

/-- POWER.CLOCK of one switched domain that is ON, or of all that are ON, to the normal clock while that clock toggles for each, or to FIO while no port votes on any, completes DONE with each of them on that clock; without those conditions it completes BUSY. CLOCK_SWITCH puts a domain that is ON, on FIO and due to switch itself on its normal clock while SQ runs on its own. Every domain stays ON. -/
def Obligations.DomainClocks : Prop :=
  ∀ (s : State),
    (∀ c tog, let d := objNum c
      Starts s 0x75 useClock c → objKind c = 0x0B → d < 56 →
      (isOn s d = true → (fbit c 8 0 = true → clkToggles tog d = true) → (fbit c 8 0 = false → portVotes s d = 0 ∧ listenVotes s d = 0) →
        ∃ t, exec (.powerClock c tog) s = .next t ∧ Completes s t 0x75 c 0x00 0 [.timeUnit]
          ∧ (dom t d).onFio = (!fbit c 8 0) ∧ (dom t d).selfSwitch = false ∧ (dom t d).st = .on) ∧
      (isOn s d = false ∨ (fbit c 8 0 = true ∧ clkToggles tog d = false) ∨ (fbit c 8 0 = false ∧ 0 < portVotes s d + listenVotes s d) →
        ∃ t, exec (.powerClock c tog) s = .next t ∧ Completes s t 0x75 c 0x14 0 [])) ∧
    (∀ c tog, Starts s 0x75 useClock c → objKind c = 0 →
      (∀ d, d < 56 → isOn s d = true → (fbit c 8 0 = true → clkToggles tog d = true) ∧ (fbit c 8 0 = false → portVotes s d = 0 ∧ listenVotes s d = 0)) →
      ∃ t, exec (.powerClock c tog) s = .next t ∧ Completes s t 0x75 c 0x00 0 [.timeUnit]
        ∧ ∀ d, d < 56 → (isOn s d = true → (dom t d).onFio = (!fbit c 8 0) ∧ (dom t d).st = .on) ∧ (isOn s d = false → (dom t d).onFio = (dom s d).onFio)) ∧
    (∀ d, s.ic.wakeHit = none → d < 56 → isOn s d = true → (dom s d).onFio = true → (dom s d).selfSwitch = true → onNormal s dSQ = true →
      ∃ t, exec (.clockSwitch d) s = .next t ∧ (dom t d).onFio = false ∧ (dom t d).selfSwitch = false ∧ (dom t d).st = .on ∧ Untouched [.timeUnit] s t)

/-- For a switched domain: 25 AO cycles after its isolation instant the request falls, and the retention signal follows its state. The fall of regulator-good, and of the acknowledge, after the request is noted, and with both low after a down sequence the 20 us hold-off begins; it ends 20 us later. Regulator-good rising on a requested, waking domain starts its bring-up. A domain that has failed once is requested again 1 ms after its request was withdrawn, once the acknowledge is low. -/
def Obligations.SupplyHandshake : Prop :=
  ∀ (s : State) (d : Nat), s.ic.wakeHit = none →
    let D := dom s d
    (D.phase = .isolated → D.isoAt + 1000 ≤ s.tm.now → D.st ≠ .on →
      ∃ t, exec (.regulatorRequestFall d) s = .next t ∧ dom t d = { D with req := false, ret := decide (D.st = .retained), phase := .requestLow, since := s.tm.now } ∧ Untouched [] s t) ∧
    (D.phase = .requestLow → D.req = false → D.pgood = true →
      ∃ t, exec (.pmPgoodFall d) s = .next t ∧ Untouched [] s t ∧ (dom t d).pgood = false
        ∧ (D.ack = false → (dom t d).phase = .holdoff ∧ (dom t d).offAt = s.tm.now) ∧ (D.ack = true → (dom t d).phase = .requestLow)) ∧
    (D.phase ≠ .requestLow → D.req = false → D.pgood = true → (D.st = .waking ∨ D.st = .failed) →
      ∃ t, exec (.pmPgoodFall d) s = .next t ∧ Untouched [] s t ∧ dom t d = { D with pgood := false }) ∧
    (D.phase = .requestLow → D.req = false → D.ack = true →
      ∃ t, exec (.pmAckFall d) s = .next t ∧ Untouched [] s t ∧ (dom t d).ack = false
        ∧ (D.pgood = false → (dom t d).phase = .holdoff ∧ (dom t d).offAt = s.tm.now) ∧ (D.pgood = true → (dom t d).phase = .requestLow)) ∧
    (D.phase ≠ .requestLow → D.req = false → D.ack = true → (D.st = .waking ∨ D.st = .failed) →
      ∃ t, exec (.pmAckFall d) s = .next t ∧ Untouched [] s t ∧ dom t d = { D with ack := false }) ∧
    (D.phase = .holdoff → D.offAt + 20000 ≤ s.tm.now → D.st ≠ .on →
      ∃ t, exec (.repowerHoldoffEnd d) s = .next t ∧ Untouched [] s t ∧ (dom t d).phase = .none) ∧
    (D.st = .waking → D.req = true → D.pgood = false →
      ∃ t, exec (.pmPgoodRise d) s = .next t ∧ Untouched [] s t ∧ dom t d = { D with pgood := true, goodAt := s.tm.now }) ∧
    (D.st = .waking → D.retrying = true → D.ack = false → D.since + 1000000 ≤ s.tm.now →
      ∃ t, exec (.wakeRetry d) s = .next t ∧ Untouched [] s t ∧ dom t d = { D with req := true, ack := true, retrying := false, reqAt := s.tm.now })

/-- A waking domain that needs no retention check reads ON 200 AO cycles after regulator-good, on its normal clock where that toggles and SQ runs on its own, else on FIO. A retained bank whose check is next reads ON after it, on such a clock; where its CRC is not the one saved, or the slot is not valid, EV_PM_RETENTION_LOST is pending. A wake without regulator-good 500 us after the request has the request withdrawn and its event pending the first time, and the domain FAILED the second. A domain that is ON and loses regulator-good is isolated and wakes again. The end of the quiesce phase of a quiet domain turns it OFF in step 4 of an AO cycle at run time, and to its save phase in the sleep set of an entry. -/
def Obligations.DomainsWakeAndFail : Prop :=
  ∀ (s : State) (d : Nat), d < 56 →
    let D := dom s d
    (∀ b, D.st = .waking → D.pgood = true → D.goodAt + 8000 ≤ s.tm.now → D.checkDue = false →
      ∃ t, exec (.domainOn d b) s = .next t ∧ (dom t d).st = .on ∧ (dom t d).onFio = !(onNormal s dSQ && b) ∧ t.mem = s.mem) ∧
    (∀ v b, D.st = .waking → D.checkDue = true → D.pgood = true → D.goodAt + 8000 ≤ s.tm.now → isOn s dCK = true → 16 ≤ d → d < 40 →
      (∀ x, x < d → (dom s x).st ≠ .retained ∧ ((dom s x).st = .waking → (dom s x).checkDue = false)) →
      ∃ t, exec (.retentionCheckDone d v b) s = .next t ∧ (dom t d).st = .on ∧ (dom t d).onFio = !(onNormal s dSQ && b) ∧ t.pw.slotValid.toNat.testBit (d - 16) = false
        ∧ ((s.pw.slotValid.toNat.testBit (d - 16) && tget 0 s.pw.slot (d - 16) == v) = false → Pends t 59 5)) ∧
    (D.st = .waking → D.req = true → D.pgood = false → D.reqAt + 500000 ≤ s.tm.now → D.tries = 0 →
      ∃ t, exec (.wakeTimeout d) s = .next t ∧ (dom t d).st = .waking ∧ (dom t d).req = false ∧ (dom t d).retrying = true
        ∧ (dom t d).tries = 1 ∧ (dom t d).since = s.tm.now ∧ Pends t 59 3) ∧
    (D.st = .waking → D.req = true → D.pgood = false → D.reqAt + 500000 ≤ s.tm.now → D.tries ≠ 0 →
      ∃ t, exec (.wakeTimeout d) s = .next t ∧ (dom t d).st = .failed ∧ (dom t d).req = false ∧ Pends t 59 2 ∧ d ∈ t.pw.failDue) ∧
    (D.st = .on → D.pgood = true →
      ∃ t, exec (.pgoodLoss d) s = .next t ∧ (dom t d).st = .waking ∧ (dom t d).pgood = false ∧ (dom t d).req = true ∧ (dom t d).reqAt = s.tm.now) ∧
    (D.st = .on → D.phase = .quiesce → quiet s d = true → inSleepSet s d = false → ¬(d = dCK ∧ s.pw.sleep = .entry ∧ s.ck.extra.toNat.testBit 62 = true) → aoEnd s = true →
      ∃ t, exec (.quiesceDone d) s = .next t ∧ (dom t d).st = .off ∧ (dom t d).phase = .isolated ∧ (dom t d).isoAt = s.tm.now) ∧
    (D.st = .on → D.phase = .quiesce → quiet s d = true → inSleepSet s d = true → s.pw.sleep = .entry → votes s d = 0 → s.ic.wakeHit = none →
      ∃ t, exec (.quiesceDone d) s = .next t ∧ (dom t d).st = .on ∧ t.pw.sleep = .entry)

/-- With every host asleep and the block idle, sleep entry begins (unless the event of a flush that finds no slot wakes the block), and the masks of POWER.RETAIN apply. Once every save of the sleep set has ended and no flush runs, the block is asleep from the end of the AO cycle on and EV_PM_SLEEP is pending, unless that event wakes it. A wake event that the masks admit, a link activity and a frame that a filter matches among them, aborts an entry with EV_PM_SLEEP_ABORT or ends a sleep, and is noted as the last wake source; so does the wake timer in a sleep. The power-fail notice is noted with its event, and its withdrawal ends it. -/
def Obligations.SleepEntryAndWake : Prop :=
  ∀ (s : State),
    (s.ic.wakeHit = none → hostsAsleep s = true → sleepIdle s none = true →
      ∃ t, exec .sleepEntry s = .next t ∧ (t.pw.sleep = .entry ∨ Pends t 61 1) ∧ t.pw.retainNow = s.pw.retainMask ∧ t.pw.releaseNow = s.pw.releaseMask) ∧
    (s.ic.wakeHit = none → s.pw.sleep = .entry → (∀ d ∈ s.pw.sleepSet, (dom s d).st = .on ∧ (dom s d).phase = .save) → s.ld.flush = none → s.ld.due = [] →
      isOn s dCK = true ∨ (∀ d ∈ s.pw.sleepSet, willRetain s d = false) → aoEnd s = true →
      ∃ t, exec .saveAndCheckDone s = .next t ∧ Pends t 59 4 ∧ ((grp s 59).wake = false → t.pw.sleep = .asleep ∧ t.pw.isoAt = s.tm.now)) ∧
    (∀ k n f, wakeOk s k n f = true → s.pw.sleep = .asleep → s.pw.wakeAt = none → s.ic.wakeHit = none →
      ∃ t, exec (.wakeEvent k n f) s = .next t ∧ t.pw.sleep = .waking ∧ t.pw.lastWake = { kind := k, num := n } ∧ (∀ h, h < 4 → (tgt t h).sleepGranted = false)) ∧
    (∀ k n f, wakeOk s k n f = true → s.pw.sleep = .entry → s.pw.wakeAt = none → s.ic.wakeHit = none →
      ∃ t, exec (.wakeEvent k n f) s = .next t ∧ t.pw.sleep = .awake ∧ t.pw.lastWake = { kind := k, num := n } ∧ t.pw.sleepSet = [] ∧ Pends t 59 1) ∧
    (∀ l, wakeOk s 1 l [] = true → s.pw.sleep = .asleep → s.pw.wakeAt = none → s.ic.wakeHit = none →
      ∃ t, exec (.linkActivity l) s = .next t ∧ t.pw.sleep = .waking ∧ t.pw.lastWake = { kind := 1, num := l }) ∧
    (∀ l, wakeOk s 1 l [] = true → s.pw.sleep = .entry → s.pw.wakeAt = none → s.ic.wakeHit = none →
      ∃ t, exec (.linkActivity l) s = .next t ∧ t.pw.sleep = .awake ∧ t.pw.lastWake = { kind := 1, num := l } ∧ Pends t 59 1) ∧
    (wakeOk s 4 0 [] = true → s.pw.wakeAt = none → s.ic.wakeHit = none →
      ∃ t, exec .wakeTimerExpiry s = .next t ∧ t.pw.sleep = .waking ∧ t.pw.lastWake = { kind := 4, num := 0 }) ∧
    (s.pw.notice = false → s.pw.edge ≠ .reset →
      ∃ t, exec .powerFailNotice s = .next t ∧ t.pw.notice = true ∧ Pends t 63 16) ∧
    (s.pw.notice = true →
      ∃ t, exec .powerFailNoticeWithdrawn s = .next t ∧ t.pw.notice = false)

/-- A block reset (unless one is in force) puts the edges in reset, gives ports, rings, bobbins, contracts, tables, stack, tests and time unit their power-up values, keeps the fuse rows, the memory, the queue of commands and the Ledger's pending counts (with those that a flush had taken), and marks the interrupted record of every ring whose instruction was in progress with cause 2; a cold reset does the same, takes over from a block reset, and clears the interrupted record. The release makes the edges LIVE and requests the boot set. 64 cycles after a soft reset began SQ leaves it and the ROM check runs. The ROM check leaves the CRC of the ROM and its outcome in channel 63. Passed, it releases the Spindle, at start-up also starter service with its counter at 0, ends the hold of a soft reset, and raises the event where an interrupted record is valid; failed, it leaves the block HELD. -/
def Obligations.Resets : Prop :=
  ∀ s : State, s.ic.wakeHit = none →
    (s.pw.edge ≠ .reset → ∃ t, exec .blockReset s = .next t ∧ t.pw.edge = .reset ∧ t.pw.resetKind = .block ∧ t.pw.resetAt = s.tm.now
      ∧ t.cr = [] ∧ t.port = {} ∧ t.ctr = {} ∧ t.bob = {} ∧ t.ct = {} ∧ t.skn = {} ∧ t.stn = {} ∧ t.pc = {} ∧ t.str = {} ∧ t.spr = {} ∧ t.stk = {} ∧ t.tu = {} ∧ t.st0 = {}
      ∧ t.tx = {} ∧ t.rx = {} ∧ t.tst = {} ∧ t.ld.fuse = s.ld.fuse ∧ t.mem = s.mem ∧ t.pending = s.pending ∧ (∀ g, grp t g = {}) ∧ (s.ld.flush = none → t.ld.pend = s.ld.pend)
      ∧ ∀ r, r < 8 → (ring s r).held ∨ (ring s r).wait.isSome → (iir t r).valid ∧ (iir t r).cause = 2 ∧ (iir t r).reported = false) ∧
    ((s.pw.edge ≠ .reset ∨ s.pw.resetKind ≠ .cold) → ∃ t, exec .coldReset s = .next t ∧ t.pw.edge = .reset ∧ t.pw.resetKind = .cold ∧ t.pw.resetAt = s.tm.now
      ∧ t.cr = [] ∧ t.port = {} ∧ t.ctr = {} ∧ t.bob = {} ∧ t.ct = {} ∧ t.skn = {} ∧ t.stn = {} ∧ t.pc = {} ∧ t.str = {} ∧ t.spr = {} ∧ t.stk = {} ∧ t.tu = {} ∧ t.st0 = {}
      ∧ t.tx = {} ∧ t.rx = {} ∧ t.tst = {} ∧ t.ld.fuse = s.ld.fuse ∧ t.mem = s.mem ∧ t.pending = s.pending ∧ (∀ g, grp t g = {}) ∧ t.sq.iir = []) ∧
    (s.pw.edge = .reset → s.pw.resetKind = .block → Answers (exec .blockResetRelease s) s [.power] fun t =>
      t.pw.edge = .live ∧ t.pw.startUp = .bootSet ∧ t.pw.bootHeld ∧ t.pw.talliesRead) ∧
    (s.pw.edge = .reset → s.pw.resetKind = .cold → Answers (exec .coldResetRelease s) s [.power] fun t =>
      t.pw.edge = .live ∧ t.pw.startUp = .bootSet ∧ t.pw.bootHeld ∧ t.pw.talliesRead) ∧
    (s.sq.inSoftReset → s.pw.softAt + softNs s ≤ s.tm.now → Answers (exec .softResetExit s) s [.spindle, .checks, .power, .ledger] fun t =>
      t.sq.inSoftReset = false ∧ t.ck.extra = setBitAt s.ck.extra 63 true ∧ t.pw.lastReset = 2 ∧ t.ld = (ldAdd s 0xB10 1).ld) ∧
    (s.ck.extra.toNat.testBit 63 → isOn s dSQ → s.sq.inSoftReset = false →
      ∃ t, exec .romCheckDone s = .next t ∧ t.mem = s.mem
        ∧ (romPasses = true → (chan t 63).result = romCrc ∧ (chan t 63).outcome = 2 ∧ t.sq.released = true ∧ t.pw.softHold = false
            ∧ (s.pw.startUp = .romCheck → t.pw.starter = true ∧ t.pw.startUp = .done ∧ t.st0 = { running := true, trimAt := s.tm.now } ∧ t.tm.count = 0)
            ∧ (anyInterrupted s = true → Pends t 58 1))
        ∧ (romPasses = false → t.sq.heldState = true ∧ t.sq.released = false ∧ t.pw.edge = .held ∧ t.pw.startUp = .done ∧ t.sq.iir = s.sq.iir ∧ t.cr = [] ∧ t.port = {}))

/-- SELFTEST of the Ledger array answers at once with its outcome and counts it, or waits for a flush; of the check engine it claims a channel and waits (BUSY with none free), and its next step answers with the outcome. A destructive test of a domain without data votes runs and the instruction waits for the end; of one with data votes it is DEFERRED, or BUSY where it may not wait; of a domain under test BUSY, of a FAILED one POWER_FAILED. LOOPBACK sets the mode of a port that is free, or is DEFERRED, or BUSY. SYS.RESET answers DONE and reserves the Spindle for the reset. SYS.STARTER completes BUSY while a powered domain runs on FIO; else it waits for the realignment boundary during starter service, and answers DONE_NOTE after it. The end of a test that an instruction waits for leaves the outcome for it, and the instruction completes with it; the end of a deferred one clears it and raises the event; an aborted test is deferred. -/
def Obligations.SelfTestsAndSystem : Prop :=
  ∀ (s : State),
    (∀ c, Starts s 0xB0 useTest c →
      let d := objNum c
      let n := fld c 8 0 8
      (n = 0 → d = 53 → s.ld.flush = none → ∃ t, exec (.selftest c) s = .next t ∧ Completes s t 0xB0 c 0x00 (testResult (scrub s)) [.ledger]
        ∧ t.ld = (testCount s 53 0 (scrub s)).ld) ∧
      (n = 0 → d = 53 → s.ld.flush.isSome = true → ∃ t, exec (.selftest c) s = .next t ∧ Waits s t 0xB0 c .flushEnd []) ∧
      (∀ x, n = 1 → d = 49 → (List.range 62).find? (fun n => !chanBusy s n) = some x →
        ∃ t, exec (.selftest c) s = .next t ∧ Waits s t 0xB0 c .ready [.checks] ∧ t.ck.extra = setBitAt s.ck.extra x true) ∧
      (n = 1 → d = 49 → (∀ x, x < 62 → chanBusy s x = true) → ∃ t, exec (.selftest c) s = .next t ∧ Completes s t 0xB0 c 0x14 0 []) ∧
      ((n = 2 ∨ n = 3) → testFits n d →
        ((testOf s d).st ≠ .none ∨ loopWaits s d = true → ∃ t, exec (.selftest c) s = .next t ∧ Completes s t 0xB0 c 0x14 0 []) ∧
        ((testOf s d).st = .none → loopWaits s d = false → isFailed s d = true → ∃ t, exec (.selftest c) s = .next t ∧ Completes s t 0xB0 c 0x40 0 []) ∧
        ((testOf s d).st = .none → loopWaits s d = false → isFailed s d = false → dataVotes (started s 0xB0 c) d = 0 →
          ∃ t, exec (.selftest c) s = .next t ∧ Waits s t 0xB0 c (.testEnd d) [.tests]
            ∧ (testOf t d).st = .running ∧ (testOf t d).test = n ∧ (testOf t d).ring = c.ring ∧ (testOf t d).noWait = fbit c 9 0 ∧ ∀ x, x ≠ d → testOf t x = testOf s x) ∧
        ((testOf s d).st = .none → loopWaits s d = false → isFailed s d = false → dataVotes (started s 0xB0 c) d ≠ 0 → fbit c 9 0 = true →
          ∃ t, exec (.selftest c) s = .next t ∧ Completes s t 0xB0 c 0x14 0 []) ∧
        ((testOf s d).st = .none → loopWaits s d = false → isFailed s d = false → dataVotes (started s 0xB0 c) d ≠ 0 → fbit c 9 0 = false →
          ∃ t, exec (.selftest c) s = .next t ∧ Completes s t 0xB0 c 0x01 0 [.spindle, .tests]
            ∧ (∀ x, x ≠ d → testOf t x = testOf s x) ∧ (testOf t d).ring = 8 ∧ (testOf t d).test = n
            ∧ ∃ e, t.sq.journal = s.sq.journal ++ [e] ∧ e.task = true ∧ e.opcode = 0xB0 ∧ e.cmd = c ∧ e.cond = .testEnd d))) ∧
    (∀ c, Starts s 0xB1 useTest c → fld c 8 0 8 ≤ 2 →
      (loopBusy s (objNum c) = true → ∃ t, exec (.loopback c) s = .next t ∧ Completes s t 0xB1 c 0x14 0 []) ∧
      (loopBusy s (objNum c) = false → (fld c 8 0 8 = 0 ∨ loopFree s (objNum c)) → ∃ t, exec (.loopback c) s = .next t ∧ Completes s t 0xB1 c 0x00 0 [.loops, .ports]
        ∧ tget 0 t.tst.loop (objNum c) = fld c 8 0 8 ∧ (∀ q, q ≠ objNum c → tget 0 t.tst.loop q = tget 0 s.tst.loop q ∧ line t q = line s q)
        ∧ line t (objNum c) = { line s (objNum c) with echo := (line t (objNum c)).echo }) ∧
      (loopBusy s (objNum c) = false → fld c 8 0 8 ≠ 0 → loopFree s (objNum c) = false → fbit c 9 0 = true → ∃ t, exec (.loopback c) s = .next t ∧ Completes s t 0xB1 c 0x14 0 []) ∧
      (loopBusy s (objNum c) = false → fld c 8 0 8 ≠ 0 → loopFree s (objNum c) = false → fbit c 9 0 = false → ∃ t, exec (.loopback c) s = .next t ∧ Completes s t 0xB1 c 0x01 0 [.loops]
        ∧ tget none t.tst.loopDefer (objNum c) = some (fld c 8 0 8) ∧ t.tst.loop = s.tst.loop)) ∧
    (∀ c, Starts s 0xF0 useByte8 c → fld c 8 0 8 = 0 → ∃ t, exec (.sysReset c) s = .next t ∧ Completes s t 0xF0 c 0x00 0 [] ∧ t.sq.resetBy = some c.ring) ∧
    (∀ c, Starts s 0xF1 useNone c →
      (anyFio s = true → ∃ t, exec (.sysStarter c) s = .next t ∧ Completes s t 0xF1 c 0x14 0 []) ∧
      (anyFio s = false → s.pw.starter → ∃ t, exec (.sysStarter c) s = .next t ∧ Waits s t 0xF1 c .boundary [.timeUnit]
        ∧ t.tu = { s.tu with pend := s.tu.pend ++ [(c.ring, .starter)] }) ∧
      (anyFio s = false → s.pw.starter = false → ∃ t, exec (.sysStarter c) s = .next t ∧ Completes s t 0xF1 c 0x02 0 [])) ∧
    (∀ d o, s.ic.wakeHit = none → (testOf s d).st = .running → isOn s d → testFits (testOf s d).test d → (o = .aborted → dataVotes s d ≠ 0) →
      let T := testOf s d
      (T.ring < 8 → o ≠ .aborted → ∃ t, exec (.selftestEnd d o) s = .next t ∧ testOf t d = { T with st := .none, result := some (testResult o) } ∧ t.sq.journal = s.sq.journal ∧ t.mem = s.mem) ∧
      (8 ≤ T.ring → o ≠ .aborted → ∃ t, exec (.selftestEnd d o) s = .next t ∧ (testOf t d).st = .none ∧ Pends t 58 2 ∧ t.sq.journal = s.sq.journal.filter (fun e => !isTestTask d e) ∧ t.mem = s.mem) ∧
      (8 ≤ T.ring → o = .aborted → ∃ t, exec (.selftestEnd d o) s = .next t ∧ Pends t 58 2 ∧ (testOf t d).ring = T.ring ∧ (testOf t d).test = T.test ∧ t.sq.journal = s.sq.journal ∧ t.mem = s.mem)) ∧
    (∀ j acked reply, Takes s acked j → j.opcode = 0xB0 → j.stage = 1 →
      (∀ n, j.scratch = [n] → ∃ t, exec (.spindleStep false acked reply) s = .next t ∧ Ends s t j 0x00 (testResult knownAnswer) [.checks, .ledger] ∧ t.ck.extra.toNat.testBit n = false) ∧
      (∀ r, j.scratch = [] → (testOf s (objNum j.cmd)).result = some r →
        ∃ t, exec (.spindleStep false acked reply) s = .next t ∧ Ends s t j 0x00 r [.tests] ∧ (testOf t (objNum j.cmd)).result = none))

/-- On an idle channel below 62, CHECK.SET sub-id 0 with a width of 1 to 64 and values that fit it stores width, polynomial, initial value and reflections; sub-id 1 with values that fit stores XOROUT, EXPECTED and COMPARE; sub-id 2 with 1 to 4,096 entries at a 16-byte aligned buffer in its window stores the list. CHECK.RUN of a list in its window waits for the list's read where it has not come; over a list that breaks a rule, or on a read error, it completes BAD_OPERAND; over another it starts the run, and completes DEFERRED with NO_WAIT or waits for its end. The end of a run stores the CRC of its octets, outcome 2 or 3 by the comparison or 4 without one, or 3 on a read error, ends the run, and EV_CK_DONE is pending, with EV_CK_MISMATCH where the outcome is 3; the waiting instruction then completes with the CRC, DONE_NOTE on a mismatch. Other channels are unchanged. -/
def Obligations.CheckChannels : Prop :=
  ∀ (s : State),
    (∀ c, let n := objNum c
     let w := fld c 24 0 8
     Starts s 0x80 useCheckSet c → n < 62 → chanBusy s n = false →
      (c.sub = 0 → 1 ≤ w → w ≤ 64 → fld c 8 0 64 < 2 ^ w → fld c 16 0 64 < 2 ^ w → (chan s n).xorout.toNat < 2 ^ w → (chan s n).expected.toNat < 2 ^ w →
        ∃ t, exec (.checkSet c) s = .next t ∧ Completes s t 0x80 c 0x00 0 [.checks]
          ∧ chan t n = { chan s n with width := w, poly := c.ops.setWidth 64, init := BitVec.ofNat 64 (fld c 16 0 64), refin := fbit c 25 0, refout := fbit c 25 1 }
          ∧ ∀ k, k ≠ n → chan t k = chan s k) ∧
      (c.sub = 1 → fld c 8 0 64 < 2 ^ (chan s n).width → fld c 16 0 64 < 2 ^ (chan s n).width →
        ∃ t, exec (.checkSet c) s = .next t ∧ Completes s t 0x80 c 0x00 0 [.checks]
          ∧ chan t n = { chan s n with xorout := c.ops.setWidth 64, expected := BitVec.ofNat 64 (fld c 16 0 64), compare := fbit c 24 0 } ∧ ∀ k, k ≠ n → chan t k = chan s k) ∧
      (c.sub = 2 → 1 ≤ fld c 18 0 16 → fld c 18 0 16 ≤ 4096 → fld c 8 0 64 % 16 = 0 → bufOk s c (fld c 8 0 64) (fld c 16 0 8) (16 * fld c 18 0 16) = true →
        ∃ t, exec (.checkSet c) s = .next t ∧ Completes s t 0x80 c 0x00 0 [.checks]
          ∧ chan t n = { chan s n with addr := c.ops.setWidth 64, window := fld c 16 0 8, count := fld c 18 0 16 } ∧ ∀ k, k ≠ n → chan t k = chan s k)) ∧
    (∀ c, let n := objNum c
     let C := chan s n
     Starts s 0x81 useCheckRun c → n < 62 → C.count ≠ 0 → chanBusy s n = false → bufOk s c C.addr.toNat C.window (16 * C.count) = true →
      (c.reads = [] → ∃ t, exec (.checkRun c) s = .next t ∧ Waits s t 0x81 c .fabric []) ∧
      (∀ r l, c.reads = r :: l →
        let o := (r.data ++ List.replicate (16 * C.count) 0).take (16 * C.count)
        let segs := (List.range C.count).map (fun i => ((listEntry o i).1, (listEntry o i).2.1))
        let N : Channel := { C with outcome := 1, run := some { segs := segs, noWait := fbit c 8 0, total := segs.foldl (fun a e => a + e.2) 0 } }
        (r.error = true ∨ listBad s o C.count = true → ∃ t, exec (.checkRun c) s = .next t ∧ Completes s t 0x81 c 0x11 0 []) ∧
        (r.error = false → listBad s o C.count = false → fbit c 8 0 = true →
          ∃ t, exec (.checkRun c) s = .next t ∧ Completes s t 0x81 c 0x01 0 [.checks] ∧ chan t n = N ∧ ∀ k, k ≠ n → chan t k = chan s k) ∧
        (r.error = false → listBad s o C.count = false → fbit c 8 0 = false →
          ∃ t, exec (.checkRun c) s = .next t ∧ Waits s t 0x81 c (.checkEnd n) [.checks] ∧ chan t n = N ∧ ∀ k, k ≠ n → chan t k = chan s k))) ∧
    (∀ n r (x : FabReply), (chan s n).run = some r → chansRun s = true → (x.error = true ∨ r.total ≤ x.data.length) →
      let o := x.data.take r.total
      ∃ t, exec (.checkRunEnd n x) s = .next t ∧ (chan t n).run = none ∧ (chan t n).result = BitVec.ofNat 64 (chanCrc (chan s n) o)
        ∧ (chan t n).outcome = (if x.error then 3 else if (chan s n).compare then (if BitVec.ofNat 64 (chanCrc (chan s n) o) = (chan s n).expected then 2 else 3) else 4)
        ∧ (chan t n).fabricErr = x.error ∧ (x.error = true → (chan t n).bytes = o.length)
        ∧ Pends t 60 1 ∧ ((chan t n).outcome = 3 → Pends t 60 0) ∧ (∀ k, k ≠ n → chan t k = chan s k)
        ∧ t.mem = s.mem) ∧
    (∀ j acked reply, let n := objNum j.cmd
     Takes s acked j → j.opcode = 0x81 → j.stage = 1 → j.cond = .checkEnd n → (chan s n).run = none → (chan s n).fabricErr = false →
      j.scratch.headD 0 < j.progress.toNat + 32768 →
      ∃ t, exec (.spindleStep false acked reply) s = .next t ∧ Ends s t j (if (chan s n).outcome = 3 then 0x02 else 0x00) (chan s n).result [])

/-- While a flush runs, LEDGER.FLUSH and LEDGER.CLEAR wait for its end. With none running and a slot that is not retired, LEDGER.FLUSH starts a flush for cause 1 and waits for its end, or completes DONE_NOTE within 1 s of the last; LEDGER.CLEAR, with tally 12 not set, starts one for cause 5. After its flush either completes DONE. With every slot retired either completes DONE with its event 1. With tally 12 at 1, LEDGER.CLEAR completes PRIVILEGE and changes nothing. Sub-id 1 stores an interval of 1 to 60 minutes, and completes BAD_OPERAND for another. The interval flush starts a flush for cause 0, or waits for the one that runs, or raises event 1 where every slot is retired. The end of a flush that reads back right, with no cause waiting, ends it, notes the instant, and EV_LD_FLUSHED is pending; one that does not is written again, and the second time its slot is retired with event 1 and the next slot is written. -/
def Obligations.LedgerFlushes : Prop :=
  ∀ (s : State),
    let slot := nextSlot (retiredOf s) (match inForce s with | some (c, _) => c | none => 3)
    (∀ c, Starts s 0x91 useLedgerFlush c → c.sub = 0 →
      (s.ld.flush.isSome = true → ∃ t, exec (.ledgerFlush c) s = .next t ∧ Waits s t 0x91 c .flushEnd []) ∧
      (s.ld.flush = none → tooSoon s 1 = true → ∃ t, exec (.ledgerFlush c) s = .next t ∧ Completes s t 0x91 c 0x02 0 []) ∧
      (s.ld.flush = none → tooSoon s 1 = false → slot.isSome →
        ∃ t f, exec (.ledgerFlush c) s = .next t ∧ Waits s t 0x91 c .flushEnd [.ledger] ∧ t.ld.flush = some f ∧ f.cause = 1 ∧ some f.slot = slot ∧ t.ld.carry = s.ld.pend ∧ t.ld.pend = {}) ∧
      (s.ld.flush = none → tooSoon s 1 = false → slot = none → ∃ t, exec (.ledgerFlush c) s = .next t ∧ Completes s t 0x91 c 0x00 0 loud ∧ Pends t 61 1)) ∧
    (∀ c, let k := { c with sub := 2 }
     Starts s 0x91 useLedgerFlush k →
      (tally s 12 = 1 → ∃ t, exec (.ledgerClear c) s = .next t ∧ Completes s t 0x91 k 0x12 0 []) ∧
      (tally s 12 ≠ 1 → s.ld.flush.isSome = true → ∃ t, exec (.ledgerClear c) s = .next t ∧ Waits s t 0x91 k .flushEnd []) ∧
      (tally s 12 ≠ 1 → s.ld.flush = none → slot.isSome →
        ∃ t f, exec (.ledgerClear c) s = .next t ∧ Waits s t 0x91 k .flushEnd [.ledger] ∧ t.ld.flush = some f ∧ f.cause = 5 ∧ some f.slot = slot ∧ t.ld.pend = {}) ∧
      (tally s 12 ≠ 1 → s.ld.flush = none → slot = none → ∃ t, exec (.ledgerClear c) s = .next t ∧ Completes s t 0x91 k 0x00 0 loud ∧ Pends t 61 1)) ∧
    (∀ j acked reply, Takes s acked j → j.opcode = 0x91 → j.cmd.sub ≠ 1 → j.stage = 1 → j.cond = .flushEnd →
      ∃ t, exec (.spindleStep false acked reply) s = .next t ∧ Ends s t j 0x00 0 []) ∧
    (∀ c, let k := { c with sub := 1 }
     Starts s 0x91 useLedgerFlush k →
      (1 ≤ fld c 8 0 8 → fld c 8 0 8 ≤ 60 → ∃ t, exec (.ledgerFlushIntervalSet c) s = .next t ∧ Completes s t 0x91 k 0x00 0 [.ledger] ∧ t.ld = { s.ld with interval := fld c 8 0 8 }) ∧
      (fld c 8 0 8 = 0 ∨ 60 < fld c 8 0 8 → ∃ t, exec (.ledgerFlushIntervalSet c) s = .next t ∧ Completes s t 0x91 k 0x11 0 [])) ∧
    (s.ic.wakeHit = none → s.pw.edge = .live → s.ld.due.contains 0 = false → (∀ f, s.ld.flush = some f → f.cause ≠ 0) →
      max s.ld.wornAt (match s.ld.lastEnd with | some t => t | none => s.pw.resetAt) + s.ld.interval * 60000000000 ≤ s.tm.now →
      (s.ld.flush = none → slot.isSome →
        ∃ t f, exec .ledgerIntervalFlush s = .next t ∧ Untouched [.ledger] s t ∧ t.ld.flush = some f ∧ f.cause = 0 ∧ some f.slot = slot ∧ t.ld.carry = s.ld.pend) ∧
      (s.ld.flush = none → slot = none → ∃ t, exec .ledgerIntervalFlush s = .next t ∧ Untouched (.ledger :: loud) s t ∧ t.ld.flush = none ∧ Pends t 61 1) ∧
      (s.ld.flush.isSome = true → ∃ t, exec .ledgerIntervalFlush s = .next t ∧ Untouched [.ledger] s t ∧ t.ld.flush = s.ld.flush ∧ t.ld.due = s.ld.due ++ [0])) ∧
    (∀ f, s.ld.flush = some f → isOn s dLD = true →
      let retired := Nat.lor (imgGet f.image 7 1) (2 ^ f.slot)
      (s.ld.due = [] → ∃ t, exec (.ledgerFlushDone true) s = .next t ∧ t.ld.flush = none ∧ t.ld.lastEnd = some s.tm.now ∧ t.ld.array = (storeSlot s f.slot f.image).ld.array
        ∧ t.ld.carry = {} ∧ t.ld.pend = s.ld.pend ∧ Pends t 61 0 ∧ Untouched (.ledger :: loud) s t) ∧
      (f.attempt = 0 → ∃ t, exec (.ledgerFlushDone false) s = .next t ∧ t.ld.flush = some { f with attempt := 1 } ∧ t.ld.carry = s.ld.carry ∧ t.ld.bad = setBitAt s.ld.bad f.slot true
        ∧ (s.ic.wakeHit = none → Untouched [.ledger, .clock] s t)) ∧
      (∀ k, f.attempt ≠ 0 → nextSlot retired f.slot = some k → ∃ t g, exec (.ledgerFlushDone false) s = .next t ∧ t.ld.flush = some g ∧ g.slot = k ∧ g.cause = f.cause
        ∧ g.attempt = 0 ∧ t.ld.carry = s.ld.carry ∧ Pends t 61 1) ∧
      (f.attempt ≠ 0 → nextSlot retired f.slot = none → s.ld.due = [] → ∃ t, exec (.ledgerFlushDone false) s = .next t ∧ t.ld.flush = none ∧ t.ld.worn = true
        ∧ t.ld.pend = mergePending s.ld.carry s.ld.pend ∧ t.ld.lastEnd = some s.tm.now ∧ Pends t 61 1))

/-- LEDGER.READ at an offset and of a length that are multiples of 8 inside the array, into a buffer of its window, waits for a flush that runs and for its write's acknowledgement. Acknowledged, the first 4,096 bytes at most stand in the buffer and every byte outside them is as before; it completes DONE where they are all, and waits for its next step where more are to come; a write error completes BAD_OPERAND. The second sample adds one to the bin of a valid temperature, keeps the highest with its time, adds one to the FEC bin of every lane of a port that is up, and adds nothing else; in reset it changes nothing. -/
def Obligations.LedgerReadAndSample : Prop :=
  ∀ (s : State),
    (∀ c, let a := fld c 8 0 64
     let n := fld c 20 0 32
     let m := min 4096 n
     Starts s 0x90 useLedgerRead c → fld c 18 0 16 % 8 = 0 → n % 8 = 0 → fld c 18 0 16 + n ≤ 65536 → bufOk s c a (fld c 16 0 8) n = true →
      (s.ld.flush.isSome = true → ∃ t, exec (.ledgerRead c) s = .next t ∧ Waits s t 0x90 c .flushEnd []) ∧
      (s.ld.flush = none → c.writeAck = none → ∃ t, exec (.ledgerRead c) s = .next t ∧ Waits s t 0x90 c .fabric []) ∧
      (s.ld.flush = none → c.writeAck = some true → ∃ t, exec (.ledgerRead c) s = .next t ∧ Completes s t 0x90 c 0x11 0 [.memory, .clock]
        ∧ ∀ x, x < a ∨ a + m ≤ x → memGet t.mem x = memGet s.mem x) ∧
      (s.ld.flush = none → c.writeAck = some false → n ≤ 4096 → ∃ t, exec (.ledgerRead c) s = .next t ∧ Completes s t 0x90 c 0x00 0 [.memory]
        ∧ (∀ i, i < n → memGet t.mem (a + i) = tget 0 s.ld.array (fld c 18 0 16 + i)) ∧ (∀ x, x < a ∨ a + n ≤ x → memGet t.mem x = memGet s.mem x)) ∧
      (s.ld.flush = none → c.writeAck = some false → 4096 < n → ∃ t, exec (.ledgerRead c) s = .next t ∧ Waits s t 0x90 c .ready [.memory]
        ∧ (∀ i, i < 4096 → memGet t.mem (a + i) = tget 0 s.ld.array (fld c 18 0 16 + i)) ∧ (∀ x, x < a ∨ a + 4096 ≤ x → memGet t.mem x = memGet s.mem x))) ∧
    (∀ temp l, s.ic.wakeHit = none → s.pw.edge ≠ .reset →
      ∃ t, exec (.ledgerSecondSample temp l) s = .next t ∧ Untouched [.ledger] s t
        ∧ (∀ o, tget 0 t.ld.pend.add o = tget 0 s.ld.pend.add o
            + (match temp with | some x => if o = 0x240 + 8 * tempBin x then 1 else 0 | none => 0)
            + ((List.range 32).filter (fun k => laneUp s k && o == 0x300 + 64 * k + 4 * fecBin ((l[k]?).getD 0))).length)
        ∧ (temp = none → t.ld.pend.temp = s.ld.pend.temp)
        ∧ (∀ x, temp = some x → (∀ m at_, s.ld.pend.temp = some (m, at_) → m < x) → t.ld.pend.temp = some (x, nowT s))
        ∧ (∀ x m at_, temp = some x → s.ld.pend.temp = some (m, at_) → x ≤ m → t.ld.pend.temp = s.ld.pend.temp)
        ∧ t.ld.pend.worst = s.ld.pend.worst ∧ t.ld.pend.recs = s.ld.pend.recs ∧ t.ld.flush = s.ld.flush) ∧
    (∀ temp l, s.ic.wakeHit = none → s.pw.edge = .reset → ∃ t, exec (.ledgerSecondSample temp l) s = .next t ∧ Untouched [] s t)

/-- TALLY.WRITE of an illegal value completes BAD_OPERAND; with no row left TALLY_EXHAUSTED, with the value in force DONE_NOTE, of a value that the block's use of the resource forbids BUSY: none burns a row, and TALLY_EXHAUSTED and BUSY raise the refusal event 3. Otherwise it burns the next rows until one reads back right: that row holds the value and its check, every row attempted counts as used, EV_TALLY_WRITTEN is pending, and it waits for the flush; with no row reading back right it waits likewise, to complete TALLY_EXHAUSTED, and event 3 is pending. Rows outside those attempted are unchanged. After the flush it completes with that status, and for a row burnt with the row and the rows left as RESULT. TALLY.READ returns the value in force and the rows used and changes nothing. -/
def Obligations.TallyWriteAndRead : Prop :=
  (∀ (s : State) (c : Cmd),
    let n := objNum c
    let v := fld c 8 0 56
    let used := burnt s n
    let bad := min c.fuseBad (8 - used)
    (Starts s 0x92 useTallyWrite c →
      (tallyBad n v = true → ∃ t, exec (.tallyWrite c) s = .next t ∧ Completes s t 0x92 c 0x11 0 []) ∧
      (tallyBad n v = false → 8 ≤ used → ∃ t, exec (.tallyWrite c) s = .next t ∧ Completes s t 0x92 c 0x22 0 (.ledger :: loud) ∧ t.ld.fuse = s.ld.fuse ∧ Pends t 61 3) ∧
      (tallyBad n v = false → used < 8 → tally s n = v → ∃ t, exec (.tallyWrite c) s = .next t ∧ Completes s t 0x92 c 0x02 0 []) ∧
      (tallyBad n v = false → used < 8 → tally s n ≠ v → tallyBusy s n v = true →
        ∃ t, exec (.tallyWrite c) s = .next t ∧ Completes s t 0x92 c 0x14 0 (.ledger :: loud) ∧ t.ld.fuse = s.ld.fuse ∧ Pends t 61 3) ∧
      (tallyBad n v = false → used < 8 → tally s n ≠ v → tallyBusy s n v = false → used + bad < 8 →
        ∃ t, exec (.tallyWrite c) s = .next t ∧ Waits s t 0x92 c .flushEnd ([.ledger, .clock] ++ loud) ∧ Pends t 61 2
          ∧ tget 0 t.ld.fuse (8 * n + used + bad) = BitVec.ofNat 64 (v + crc8 (le 7 v) * 2 ^ 56)
          ∧ (∀ i, i ≤ bad → (tget 0 t.ld.tried n).toNat.testBit (used + i) = true) ∧ (∀ i, i < bad → rowOk (tget 0 t.ld.fuse (8 * n + used + i)) = false)
          ∧ (∀ k, k < 8 * n + used ∨ 8 * n + used + bad < k → tget 0 t.ld.fuse k = tget 0 s.ld.fuse k)
          ∧ ∃ e ∈ t.sq.journal, e.ring = c.ring ∧ e.scratch = [0, used + bad + (8 - (used + bad + 1)) * 2 ^ 8]) ∧
      (tallyBad n v = false → used < 8 → tally s n ≠ v → tallyBusy s n v = false → used + bad = 8 →
        ∃ t, exec (.tallyWrite c) s = .next t ∧ Waits s t 0x92 c .flushEnd ([.ledger, .clock] ++ loud) ∧ Pends t 61 2 ∧ Pends t 61 3
          ∧ (∀ i, i < bad → (tget 0 t.ld.tried n).toNat.testBit (used + i) = true ∧ rowOk (tget 0 t.ld.fuse (8 * n + used + i)) = false)
          ∧ (∀ k, k < 8 * n + used ∨ 8 * n + used + bad ≤ k → tget 0 t.ld.fuse k = tget 0 s.ld.fuse k)
          ∧ ∃ e ∈ t.sq.journal, e.ring = c.ring ∧ e.scratch = [0x22, 0])) ∧
    (Starts s 0x93 useNone c →
      ∃ t, exec (.tallyRead c) s = .next t ∧ Completes s t 0x93 c 0x00 (BitVec.ofNat 64 (tally s n + used * 2 ^ 56)) [])) ∧
  (∀ (s : State) (j : JEntry) (st res : Nat) acked reply, Takes s acked j → j.opcode = 0x92 → j.cond = .flushEnd → j.scratch = [st, res] →
    ∃ t, exec (.spindleStep false acked reply) s = .next t ∧ Ends s t j (BitVec.ofNat 8 st) (BitVec.ofNat 64 res) [])

/-- STACK.FORM of an instance in no stack that may be a Distaff, names itself and has proper ports makes it DISTAFF of generation 1 with the members and ports given; in a stack or under the starter it completes BUSY, otherwise BAD_OPERAND. STACK.JOIN makes it JOINING under the Distaff named and waits; a Distaff above 31 is NO_OBJECT, improper ports BAD_OPERAND. It goes on when a frame of that Distaff is heard, takes its generation on an acknowledgement of result 0, and completes DONE as MEMBER once its time has stepped; with no frame in 1 ms, or out of JOINING, it completes STACK_SPLIT, with another result BAD_OPERAND and that result, out of every stack. STACK.ELECT of an eligible ORPHAN makes it DISTAFF under the generation one above the highest it can reach, returns that and raises EV_STK_ELECT; another state is BUSY, another instance BAD_OPERAND. STACK.LEAVE outside a stack answers DONE_NOTE, with stack contracts or as a Distaff with others in reach BUSY, and else leaves the stack. PORT.PLY with a partner that is reachable and free passes its checks and goes on with two further steps (the last is in StepsFaultsAndRecords); a wrong partner is BAD_OPERAND, upper lanes in use here or there BUSY, an unreachable partner STACK_SPLIT, a port that is not plied DONE_NOTE, one still named BUSY. -/
def Obligations.StackAndPlyInstructions : Prop :=
  (∀ (s : State) (c : Cmd),
    let F := fun (st : BitVec 8) => ∃ t, exec (.stackForm c) s = .next t ∧ Completes s t 0xA0 c st 0 []
    (Starts s 0xA0 useStackForm c →
      let own := fld c 8 0 5 = ownInst s ∧ eligible s ∧ (fld c 12 0 32).testBit (ownInst s) ∧ stackPortsBad s (fld c 16 0 32) = false
      (inStarter s ∨ s.stk.st ≠ .none → F 0x14) ∧
      (inStarter s = false → s.stk.st = .none → ¬ own → F 0x11) ∧
      (inStarter s = false → s.stk.st = .none → own → ∃ t, exec (.stackForm c) s = .next t ∧ Completes s t 0xA0 c 0x00 0 [.stack]
        ∧ t.stk.st = .distaff ∧ t.stk.distaff = ownInst s ∧ t.stk.gen = 1 ∧ t.stk.hops = 0 ∧ t.stk.members = BitVec.ofNat 32 (fld c 12 0 32)
        ∧ t.stk.portMask = BitVec.ofNat 32 (fld c 16 0 32) ∧ ∀ i, i < 32 → i ≠ ownInst s → reachable t i = false)) ∧
    (Starts s 0xA1 useStackJoin c →
      let J := fun (st : BitVec 8) => ∃ t, exec (.stackJoin c) s = .next t ∧ Completes s t 0xA1 c st 0 []
      (inStarter s ∨ s.stk.st ≠ .none → J 0x14) ∧
      (inStarter s = false → s.stk.st = .none → 32 ≤ fld c 8 0 8 → J 0x13) ∧
      (inStarter s = false → s.stk.st = .none → fld c 8 0 8 < 32 → stackPortsBad s (fld c 16 0 32) = true → J 0x11) ∧
      (inStarter s = false → s.stk.st = .none → fld c 8 0 8 < 32 → stackPortsBad s (fld c 16 0 32) = false →
        ∃ t, exec (.stackJoin c) s = .next t ∧ Waits s t 0xA1 c (.stackReply c.ring) [.stack, .ports] ∧ t.stk.st = .joining ∧ t.stk.distaff = fld c 8 0 8
          ∧ t.stk.portMask = BitVec.ofNat 32 (fld c 16 0 32) ∧ tget none t.stk.reply c.ring = some (.waiting s.tm.now 0))) ∧
    (Starts s 0xA2 useNone c →
      let E := fun (st : BitVec 8) => ∃ t, exec (.stackElect c) s = .next t ∧ Completes s t 0xA2 c st 0 []
      (inStarter s ∨ s.stk.st ≠ .orphan → E 0x14) ∧
      (inStarter s = false → s.stk.st = .orphan → eligible s = false → E 0x11) ∧
      (inStarter s = false → s.stk.st = .orphan → eligible s →
        ∃ t, exec (.stackElect c) s = .next t ∧ Completes s t 0xA2 c 0x00 (BitVec.ofNat 64 ((topGen s + 1) % 2 ^ 32)) ([.stack, .timeUnit] ++ loud)
          ∧ t.stk.st = .distaff ∧ t.stk.distaff = ownInst s ∧ t.stk.gen = (topGen s + 1) % 2 ^ 32 ∧ t.stk.hops = 0 ∧ t.stk.upstream = none ∧ Pends t 62 2
          ∧ t.tu = if isOn s dTU = true then { s.tu with stepped := true, holdover := false } else s.tu)) ∧
    (Starts s 0xA3 useNone c →
      let L := fun (st : BitVec 8) => ∃ t, exec (.stackLeave c) s = .next t ∧ Completes s t 0xA3 c st 0 []
      let alone := ∀ i, i < 32 → reachable s i = true → i = ownInst s
      (s.stk.st = .none → L 0x02) ∧
      (s.stk.st = .distaff → ¬ alone → L 0x14) ∧
      (s.stk.st ≠ .none → stackContracts s (fun _ => true) ≠ [] → L 0x14) ∧
      (s.stk.st ≠ .none → (s.stk.st = .distaff → alone) → stackContracts s (fun _ => true) = [] →
        ∃ t, exec (.stackLeave c) s = .next t ∧ Completes s t 0xA3 c 0x00 0 [.stack, .timeUnit, .ports] ∧ t.stk.st = .none ∧ t.stk.portMask = 0 ∧ t.stk.members = 0)) ∧
    (Starts s 0x16 usePortPly c → plyJoin c →
      let P := fun (st : BitVec 8) => ∃ t, exec (.portPlyJoin c) s = .next t ∧ Completes s t 0x16 c st 0 []
      (inStarter s → P 0x14) ∧
      (inStarter s = false → plyBad s c = true → P 0x11) ∧
      (inStarter s = false → plyBad s c = false → upperLanes s ∨ c.partnerLanes → P 0x14) ∧
      (inStarter s = false → plyBad s c = false → upperLanes s = false → c.partnerLanes = false → reachable s (ownInst s + 1) = false → P 0x41) ∧
      (inStarter s = false → plyBad s c = false → upperLanes s = false → c.partnerLanes = false → reachable s (ownInst s + 1) →
        ∃ t, exec (.portPlyJoin c) s = .next t ∧ Waits s t 0x16 c .ready [])) ∧
    (let k := withoutJoin c
     Starts s 0x16 usePortPly k →
      let P := fun (st : BitVec 8) => ∃ t, exec (.portPlySeparate c) s = .next t ∧ Completes s t 0x16 k st 0 []
      (inStarter s → P 0x14) ∧
      (inStarter s = false → plyBad s k = true → P 0x11) ∧
      (inStarter s = false → plyBad s k = false → reachable s (ownInst s + 1) = false → P 0x41) ∧
      (inStarter s = false → plyBad s k = false → reachable s (ownInst s + 1) → isPlied s = false → P 0x02) ∧
      (inStarter s = false → plyBad s k = false → reachable s (ownInst s + 1) → isPlied s → portNamed s 24 = true → P 0x14) ∧
      (inStarter s = false → plyBad s k = false → reachable s (ownInst s + 1) → isPlied s → portNamed s 24 = false →
        ∃ t, exec (.portPlySeparate c) s = .next t ∧ Waits s t 0x16 k .ready []))) ∧
  (∀ (s : State) (j : JEntry) acked reply, Takes s acked j → j.cmd.ring = j.ring →
    let o := exec (.spindleStep false acked reply) s
    let on := fun (cond : Cond) (stage : Nat) (but : List Part) (P : State → Prop) =>
      ∃ t e, o = .next t ∧ t.sq.journal = s.sq.journal.erase j ++ [e] ∧ e.cmd = j.cmd ∧ e.cond = cond ∧ e.stage = stage ∧ Untouched (.rings :: .spindle :: but) s t ∧ P t
    let fails := fun (st : BitVec 8) (res : BitVec 64) => ∃ t, o = .next t ∧ Ends s t j st res [.stack, .timeUnit] ∧ t.stk.st = .none ∧ tget none t.stk.reply j.ring = none
    (j.opcode = 0x16 → j.stage = 1 → j.cond = .ready → on .ready 2 [] fun t => t.port = s.port) ∧
    (j.opcode = 0xA1 → j.cond = .stackReply j.ring →
      (s.stk.st ≠ .joining → 1 ≤ j.stage → fails 0x41 0) ∧
      (s.stk.st = .joining → j.stage = 1 → s.stk.joinHeard = true → on (.stackReply j.ring) 2 [.stack] fun t => t.stk.st = .joining ∧ tget none t.stk.reply j.ring = some (.waiting s.tm.now 0)) ∧
      (s.stk.st = .joining → j.stage = 1 → s.stk.joinHeard = false → fails 0x41 0) ∧
      (s.stk.st = .joining → j.stage = 2 → s.stk.joinAck = some 0 → on (.stackReply j.ring) 3 [.stack] fun t => t.stk.st = .joining ∧ t.stk.gen = s.stk.joinGen ∧ tget none t.stk.reply j.ring = none) ∧
      (∀ r, s.stk.st = .joining → j.stage = 2 → s.stk.joinAck = some r → r ≠ 0 → fails 0x11 (BitVec.ofNat 64 r)) ∧
      (s.stk.st = .joining → j.stage = 2 → s.stk.joinAck = none → tget none s.stk.reply j.ring = some .timeout → fails 0x41 0) ∧
      (s.stk.st = .joining → j.stage = 3 → ∃ t, o = .next t ∧ Ends s t j 0x00 0 [.stack] ∧ t.stk = { s.stk with st := .member, quality := some .locked })))

/-- In a stack: each microsecond the own entry counts up and is sent; an entry without a change for 8 us makes its instance unreachable, raises the event for a member, suspends the contracts that name it, and makes an orphan at once of an instance whose Distaff it is where the members do not hold the Distaff or a merge window lasts (else the routine that the event calls does, R449); a link without a heartbeat for 8 us raises its event once. TIME goes out every 16 us, delay requests every 1 ms on every link with its next number and the time. An upstream without TIME for 64 us is chosen anew. After 16 ms a merge window queues the step by the negative mean of its offsets. 17 ms after its instances are reachable again a contract is no longer suspended, and the interval is kept. An absent partner takes the plied port down. A pending approval ends after 10 ms, an awaited answer after 1 ms. Before its time, and outside a stack, none of them changes anything. -/
def Obligations.StackTimers : Prop :=
  ∀ s : State, s.ic.wakeHit = none →
    (inStack s → s.stk.hbAt + 1000 ≤ s.tm.now → Answers (exec .heartbeatTick s) s [.stack, .ports] fun t =>
      t.stk.own = s.stk.own + 1 ∧ tget 0 t.stk.v (ownInst s) = s.stk.own + 1 ∧ t.stk.hbAt = s.tm.now ∧ freshOf t (ownInst s) = s.tm.now
      ∧ (∀ i, i ≠ ownInst s → tget 0 t.stk.v i = tget 0 s.stk.v i) ∧ (t.stk.sent.map (·.link)) = (dieMates s).map .die
      ∧ ∀ p, p < 32 → s.stk.portMask.toNat.testBit p → (line s p).up → ∃ o, OwnFrame.heartbeat o ∈ (line t p).own) ∧
    (∀ i, inStack s → freshOf s i + 8000 ≤ s.tm.now → i ≠ ownInst s → s.stk.reach.toNat.testBit i →
      Answers (exec (.reachStale i) s) s ([.stack, .contracts, .timeUnit] ++ loud) fun t => t.stk.reach = setBitAt s.stk.reach i false
        ∧ (s.stk.members.toNat.testBit i → Pends t 62 1)
        ∧ t.stk.st = (if i = s.stk.distaff ∧ (s.stk.st = .merging ∨ s.stk.st = .member ∧ s.stk.members.toNat.testBit i = false) then .orphan else s.stk.st)
        ∧ (∀ n, (contr s n).st ≠ .free → (contr s n).img.stackMask.toNat.testBit i → (contr t n).suspended = true)
        ∧ ∀ n, (contr s n).st = .free ∨ (contr s n).img.stackMask.toNat.testBit i = false → contr t n = contr s n) ∧
    (∀ l t0, inStack s → (linkOf s l).heard = some t0 → (linkOf s l).lossRaised = false → t0 + 8000 ≤ s.tm.now →
      Answers (exec (.linkHeartbeatLoss l) s) s (.stack :: loud) fun t => linkOf t l = { linkOf s l with lossRaised := true } ∧ Pends t 62 0) ∧
    (inStack s → sendsTime s → s.stk.timeAt + 16000 ≤ s.tm.now → Answers (exec .timeFrameTick s) s [.stack, .ports] fun t =>
      t.stk.timeAt = s.tm.now ∧ t.stk.st = s.stk.st ∧ t.stk.upstream = s.stk.upstream ∧ (t.stk.sent.map (·.link)) = (dieMates s).map .die
      ∧ ∀ p, p < 32 → s.stk.portMask.toNat.testBit p → (line s p).up → ∃ o, OwnFrame.time o ∈ (line t p).own) ∧
    (∀ l, s.stk.upstream = some l → inStack s → carriesTime s l = false → Answers (exec .upstreamTimeout s) s [.stack] fun t =>
      t.stk = (chooseUpstream s).stk ∧ ((∀ k ∈ stkLinks s, carriesTime s k = false) → t.stk.upstream = none ∧ t.stk.hops = 0xFF)) ∧
    (inStack s → s.stk.delayAt + 1000000 ≤ s.tm.now → Answers (exec .delayReqTick s) s [.stack, .ports] fun t => t.stk.delayAt = s.tm.now
      ∧ (∀ l ∈ stkLinks s, linkOf t l = { linkOf s l with reqSeq := (linkOf s l).reqSeq + 1, t1 := (t96n (nowT s) : Nat) })
      ∧ (t.stk.sent.map (·.link)) = (dieMates s).map .die) ∧
    (inStack s → s.stk.st = .merging → s.stk.mergeAt + 16000000 ≤ s.tm.now → stepPending s = false →
      (s.stk.offsets ≠ [] → Answers (exec .mergeWindowEnd s) s [.timeUnit] fun t => t.tu = { s.tu with pend := s.tu.pend ++ [(8, .stackStep (-(meanOf s.stk.offsets)))] }) ∧
      (s.stk.offsets = [] → Answers (exec .mergeWindowEnd s) s [.timeUnit, .clock] fun t => ∃ o, t.tu = { s.tu with pend := s.tu.pend ++ [(8, .stackStep o)] })) ∧
    (∀ n t0, isOn s dSL → (contr s n).suspended → (contr s n).reachAt = some t0 → t0 + 17000000 ≤ s.tm.now →
      Answers (exec (.suspensionEnd n) s) s [.contracts] fun t => contr t n = { contr s n with
        suspended := false, reachAt := none, pastSusp := (contr s n).pastSusp ++ [((contr s n).suspFrom, s.tm.count)] } ∧ ∀ m, m ≠ n → contr t m = contr s m) ∧
    (isPlied s → (line s 24).up → Answers (exec .partnerAbsent s) s flight fun t => (line t 24).up = false ∧ Pends t 24 1) ∧
    (isPlied s = false ∨ (line s 24).up = false → Answers (exec .partnerAbsent s) s [] fun _ => True) ∧
    (∀ tag r, inStack s → s.stk.pending.any (fun e => e.requester == r && e.tag == tag && decide (e.at_ + 10000000 ≤ s.tm.now)) →
      Answers (exec (.admitPendingTimeout tag r) s) s [.stack] fun t => t.stk.pending = s.stk.pending.filter (fun e => !(e.requester == r && e.tag == tag))) ∧
    (∀ r t0 tag, tget none s.stk.reply r = some (.waiting t0 tag) →
      (t0 + 1000000 ≤ s.tm.now → Answers (exec (.stackResponseTimeout r) s) s [.stack] fun t => tget none t.stk.reply r = some .timeout
        ∧ ∀ q, q ≠ r → tget none t.stk.reply q = tget none s.stk.reply q) ∧
      (s.tm.now < t0 + 1000000 → Answers (exec (.stackResponseTimeout r) s) s [] fun _ => True)) ∧
    (∀ i l tag r, inStack s = false →
      (∀ x ∈ [Instr.heartbeatTick, .reachStale i, .linkHeartbeatLoss l, .timeFrameTick, .upstreamTimeout, .delayReqTick, .mergeWindowEnd, .admitPendingTimeout tag r],
        Answers (exec x s) s [] fun _ => True)) ∧
    (∀ i, s.tm.now < s.stk.hbAt + 1000 → s.tm.now < s.stk.timeAt + 16000 → s.tm.now < s.stk.delayAt + 1000000 → s.tm.now < freshOf s i + 8000 →
      (∀ x ∈ [Instr.heartbeatTick, .timeFrameTick, .delayReqTick, .reachStale i], Answers (exec x s) s [] fun _ => True))

/-- On a link that may carry them: a heartbeat is noted; one of the own generation and Distaff makes every newer entry fresh and its instance reachable, and lets an orphan whose Distaff is reachable merge; one of a winning stack withdraws the contracts of a member or Distaff and begins its merge window; JOINING hears its Distaff. TIME of the upstream is noted with its hops, and its offset steps the time (1 us or more, or in JOINING) or is added up. A delay request is answered on its link; the response to the last request gives the next delay. At the Distaff a join request is answered with its result, an admission request joins the pending approvals exactly when it is approved and is answered, a release ends the approval; elsewhere each is passed on once in 1 ms to the upstream (a join request without one to every other link). The first acknowledgement of a joining instance is kept, a response answers the ring that waits for it, those of others are passed on to every other link. A leave makes its sender unreachable and is passed on. On another link, or in no stack, a frame changes nothing. -/
def Obligations.StackFrames : Prop :=
  ∀ (s : State) (l : StackLink) (h : StackHead), s.ic.wakeHit = none →
    let rx : List Part := [.stack, .counters]
    let noted := fun (t : State) => (linkOf t l).heard = some s.tm.now ∧ (linkOf t l).lossRaised = false ∧ tget 0 t.stk.genSeen h.sender = h.gen
    let quiet := fun (t : State) => t.stk = { s.stk with sent := [] }
    let isPort := 32 ≤ linkKey l
    let p := linkKey l - 32
    let out := fun (t : State) (type : Nat) (body : Octets) =>
      (¬ isPort → t.stk.sent = [{ link := l, octets := stkOctets s l type (ownHead s) body }]) ∧
      (isPort → (line s p).up → (line t p).own = (line s p).own ++ [.stack (stkOctets s l type (ownHead s) body)])
    let known := fun (type who tag : Nat) => s.stk.relayed.any (fun e => decide (s.tm.now < e.2.2.2 + 1000000) && e.1 == type && e.2.1 == who && e.2.2.1 == tag)
    let passed := fun (t : State) (type who tag : Nat) (body : Octets) (ls : List StackLink) =>
      (known type who tag = true → t.stk.relayed = s.stk.relayed ∧ t.stk.sent = [] ∧ t.port = s.port) ∧
      (known type who tag = false → t.stk.relayed = s.stk.relayed.filter (fun e => decide (s.tm.now < e.2.2.2 + 1000000)) ++ [(type, who, tag, s.tm.now)]
        ∧ t.stk.sent = (ls.filter (fun k => match k with | .die _ => true | .port _ => false)).map (fun k => { link := k, octets := stkOctets s k type h body })
        ∧ ∀ q, q < 32 → ls.contains (.port q) → (line s q).up → (line t q).own = (line s q).own ++ [.stack (stkOctets s (.port q) type h body)])
    (inStack s → linkOk s l →
      (∀ v,
        (sameStack s h = false → s.stk.st ≠ .joining → wins s h = false → Answers (exec (.heartbeat l h v) s) s rx fun t => noted t
          ∧ t.stk.st = s.stk.st ∧ t.stk.gen = s.stk.gen ∧ t.stk.reach = s.stk.reach ∧ t.stk.v = s.stk.v) ∧
        (sameStack s h = false → s.stk.st ≠ .joining → wins s h → Answers (exec (.heartbeat l h v) s) s ([.stack, .counters, .contracts, .bobbins, .timeUnit] ++ loud) fun t => noted t ∧
          t.stk.st = .merging ∧ t.stk.gen = h.gen ∧ t.stk.distaff = h.distaff ∧ t.stk.upstream = none ∧ t.stk.mergeAt = s.tm.now ∧ t.stk.offsets = []
          ∧ ((s.stk.st = .member ∨ s.stk.st = .distaff) → ∀ n, (contr s n).st = .admitted → (contr s n).img.stackMask ≠ 0 → (contr t n).st = .withdrawing ∨ (contr t n).st = .free)) ∧
        (sameStack s h → Answers (exec (.heartbeat l h v) s) s ([.stack, .counters, .contracts, .timeUnit] ++ loud) fun t => noted t
          ∧ (s.stk.st ≠ .orphan → t.stk.st = s.stk.st)
          ∧ (s.stk.st = .orphan → reachable s s.stk.distaff → s.stk.distaff ≠ ownInst s → t.stk.st = .merging ∧ t.stk.mergeAt = s.tm.now)
          ∧ ∀ i, i < 32 →
            let x := v.extractLsb' (8 * i) 8
            let d := (x - tget 0 s.stk.v i).toNat
            if 1 ≤ d ∧ d ≤ 127 ∨ s.stk.reach.toNat.testBit i = false ∧ d ≠ 0 then tget 0 t.stk.v i = x ∧ freshOf t i = s.tm.now ∧ t.stk.reach.toNat.testBit i = true
            else tget 0 t.stk.v i = tget 0 s.stk.v i ∧ freshOf t i = freshOf s i ∧ t.stk.reach.toNat.testBit i = s.stk.reach.toNat.testBit i) ∧
        (s.stk.st = .joining → h.distaff = s.stk.distaff → h.state = 2 ∨ h.state = 3 → Answers (exec (.heartbeat l h v) s) s ([.stack, .counters, .contracts] ++ loud) fun t =>
          noted t ∧ t.stk.joinHeard = true ∧ t.stk.joinGen = h.gen ∧ t.stk.st = .joining)) ∧
      (∀ o x q,
        let e := (linkStamp l x s).1 - meanOf (linkOf s l).delays - o
        let T := fun (P : State → Prop) => Answers (exec (.time l h o x q) s) s [.stack, .timeUnit, .counters] P
        let follow := sameStack s h ∧ h.hops ≠ 0xFF ∧ s.stk.upstream = some l ∧ s.stk.reserved = false
        (s.stk.st = .member → follow → T fun t => (linkOf t l).timeAt = some s.tm.now ∧ (linkOf t l).hops = h.hops ∧ t.stk.hops = h.hops + 1 ∧ t.stk.st = .member) ∧
        (s.stk.st = .member → follow → (linkOf s l).delays ≠ [] → stepPending s = false →
          (65536000 ≤ e ∨ e ≤ -65536000 → T fun t => t.tu.pend = s.tu.pend ++ [(8, .stackStep (-e))] ∧ t.stk.acc = 0) ∧
          (-65536000 < e → e < 65536000 → s.stk.n + 1 ≠ 16 → T fun t => t.tu.pend = s.tu.pend ∧ t.stk.acc = s.stk.acc + e ∧ t.stk.n = s.stk.n + 1)) ∧
        (s.stk.st = .joining → s.stk.joinStepped = false → follow → (linkOf s l).delays ≠ [] → stepPending s = false → T fun t => t.tu.pend = s.tu.pend ++ [(8, .stackStep (-e))]) ∧
        (s.stk.st = .merging → follow → (linkOf s l).delays ≠ [] → stepPending s = false → T fun t => t.stk.offsets = (e :: s.stk.offsets).take 16 ∧ t.tu.pend = s.tu.pend) ∧
        (s.stk.st ≠ .joining → mayFollow s = false ∨ sameStack s h = false ∨ h.hops = 0xFF → T fun t => quiet t ∧ t.tu.pend = s.tu.pend)) ∧
      (∀ seq x, Answers (exec (.delayReq l h seq x) s) s [.stack, .ports, .timeUnit, .counters] fun t =>
        out t 4 (be 2 seq.toNat ++ t96wire (nT96 (linkStamp l x s).1) ++ t96wire (nowT s))) ∧
      (∀ seq t2 t3 x,
        (seq = (linkOf s l).reqSeq → Answers (exec (.delayResp l h seq t2 t3 x) s) s [.stack, .timeUnit, .counters] fun t =>
          linkOf t l = { linkOf s l with delays := (Int.fdiv (((linkStamp l x s).1 - (linkOf s l).t1) - (t3 - t2)) 2 :: (linkOf s l).delays).take 16 }) ∧
        (seq ≠ (linkOf s l).reqSeq → Answers (exec (.delayResp l h seq t2 t3 x) s) s [.stack, .timeUnit, .counters] quiet)) ∧
      (s.stk.st = .distaff → Answers (exec (.joinReq l h) s) s [.stack, .ports, .counters] fun t =>
        out t 6 (be 1 h.sender ++ be 1 (joinAnswer s h) ++ be 4 s.stk.members.toNat) ∧ t.stk.members = s.stk.members) ∧
      (s.stk.st ≠ .distaff → Answers (exec (.joinReq l h) s) s [.stack, .ports, .counters] fun t =>
        passed t 5 h.sender 0 [] (if s.stk.upstream = none then otherLinks s l else s.stk.upstream.toList)) ∧
      (∀ i r m,
        (i = ownInst s → s.stk.st = .joining → s.stk.joinAck = none → Answers (exec (.joinAck l h i r m) s) s rx fun t =>
          t.stk.joinAck = some r ∧ t.stk.members = if r = 0 then m else s.stk.members) ∧
        (i = ownInst s → s.stk.st ≠ .joining ∨ s.stk.joinAck ≠ none → Answers (exec (.joinAck l h i r m) s) s rx quiet) ∧
        (i ≠ ownInst s → Answers (exec (.joinAck l h i r m) s) s [.stack, .ports, .counters] fun t =>
          passed t 6 i 0 (be 1 i ++ be 1 r ++ be 4 m.toNat) (otherLinks s l))) ∧
      (∀ m,
        (s.stk.st = .distaff → Answers (exec (.admitReq l h m) s) s [.stack, .ports, .counters] fun t =>
          out t 8 (respBody { m with result := approval s m.mask })
          ∧ t.stk.pending = if approval s m.mask = 0 then s.stk.pending ++ [{ requester := m.requester, contract := m.contract, mask := m.mask, tag := m.tag, at_ := s.tm.now }]
            else s.stk.pending) ∧
        (s.stk.st ≠ .distaff → Answers (exec (.admitReq l h m) s) s [.stack, .ports, .counters] fun t => passed t 7 m.requester m.tag.toNat (admitBody m) s.stk.upstream.toList) ∧
        (∀ r, m.requester = ownInst s → waiter s m.tag = some r → Answers (exec (.admitResp l h m) s) s rx fun t =>
          tget none t.stk.reply r = some (.answered m.result) ∧ ∀ q, q ≠ r → tget none t.stk.reply q = tget none s.stk.reply q) ∧
        (m.requester = ownInst s → waiter s m.tag = none → Answers (exec (.admitResp l h m) s) s rx quiet) ∧
        (m.requester ≠ ownInst s → Answers (exec (.admitResp l h m) s) s [.stack, .ports, .counters] fun t => passed t 8 m.requester m.tag.toNat (respBody m) (otherLinks s l)) ∧
        (s.stk.st = .distaff → Answers (exec (.release l h m) s) s rx fun t =>
          t.stk.pending = s.stk.pending.filter (fun e => !(e.requester == m.requester && e.tag == m.tag))) ∧
        (s.stk.st ≠ .distaff → Answers (exec (.release l h m) s) s [.stack, .ports, .counters] fun t => passed t 9 m.requester m.tag.toNat (releaseBody m) s.stk.upstream.toList)) ∧
      (Answers (exec (.leave l h) s) s ([.stack, .contracts, .timeUnit, .ports, .counters] ++ loud) fun t =>
        passed t 10 h.sender 0 [] (otherLinks s l)
        ∧ (h.sender = ownInst s → t.stk.reach = s.stk.reach) ∧ (h.sender ≠ ownInst s → s.stk.reach.toNat.testBit h.sender = false → t.stk.reach = s.stk.reach)
        ∧ (h.sender ≠ ownInst s → s.stk.reach.toNat.testBit h.sender → t.stk.reach = setBitAt s.stk.reach h.sender false ∧ (s.stk.members.toNat.testBit h.sender → Pends t 62 1)))) ∧
    (inStack s = false ∨ linkOk s l = false → ∀ v o x q seq t2 t3 i r a m,
      ∀ k ∈ [Instr.heartbeat l h v, .time l h o x q, .delayReq l h seq x, .delayResp l h seq t2 t3 x, .joinReq l h, .joinAck l h i r a, .admitReq l h m, .admitResp l h m,
        .release l h m, .leave l h], Answers (exec k s) s [] fun _ => True)

/-- With the index window open and a full-strobe write of v to an OPEN bobbin: v below twice the size and, for a transmit or receive bobbin, no further on than the free entries, for a completion bobbin no further on than the occupancy, moves HOST_IDX to v; any other value but HOST_IDX itself changes no bobbin, adds one to INDEX_ERROR of the bank and makes EV_BOB_INDEX_ERROR pending. A write equal to HOST_IDX, or to a bobbin that is not OPEN, changes nothing and counts nothing, and so does one with fewer than all strobes; with the window closed the write is ABSENT and changes nothing. -/
def Obligations.BobbinDoorbell : Prop :=
  ∀ (s : State) (b : Nat) (v : BitVec 64),
    let B := bobn s b
    let z := 2 ^ B.sizeLog2
    let w := v.toNat % 2 ^ 17
    let adv := (w + 2 * z - B.hostIdx) % (2 * z)
    let ok := w < 2 * z ∧ (B.kind ≠ .completion → adv ≤ z - (B.hostIdx + 2 * z - B.blockIdx) % (2 * z))
      ∧ (B.kind = .completion → adv ≤ (B.blockIdx + 2 * z - B.hostIdx) % (2 * z))
    s.ic.wakeHit = none →
    (idxOpen s b = false → ∀ x, Answers (exec (.hostIdxWrite b v x) s) s [.regPort] fun t => t.reg = { resp := .absent, data := [] }) ∧
    (idxOpen s b = true → ∀ x, x ≠ 0xFF → Answers (exec (.hostIdxWrite b v x) s) s [.regPort] fun t => t.reg = { resp := .served, data := [] }) ∧
    (idxOpen s b = true → B.st = .opened → w ≠ B.hostIdx → ok →
      ∃ t, exec (.hostIdxWrite b v 0xFF) s = .next t ∧ (bobn t b).hostIdx = w ∧ (∀ x, x ≠ b → (bobn t x).hostIdx = (bobn s x).hostIdx) ∧ t.reg = { resp := .served, data := [] }
        ∧ (B.pushed = [] → B.kind = .receive → bobn t b = { B with hostIdx := w } ∧ (∀ x, x ≠ b → bobn t x = bobn s x) ∧ Untouched [.bobbins, .regPort, .ports] s t)
        ∧ (B.pushed = [] → B.kind ≠ .receive → bobn t b = { B with hostIdx := w } ∧ (∀ x, x ≠ b → bobn t x = bobn s x) ∧ Untouched [.bobbins, .regPort] s t)) ∧
    (idxOpen s b = true → B.st = .opened → w ≠ B.hostIdx → ¬ ok →
      ∃ t, exec (.hostIdxWrite b v 0xFF) s = .next t ∧ (∀ x, bobn t x = bobn s x) ∧ Pends t (38 + b / 32768) 0
        ∧ tget 0 t.ctr.bank (8 * (b / 32768)) = tget 0 s.ctr.bank (8 * (b / 32768)) + 1 ∧ Untouched ([.counters, .regPort] ++ loud) s t) ∧
    (idxOpen s b = true → B.st ≠ .opened ∨ w = B.hostIdx →
      ∃ t, exec (.hostIdxWrite b v 0xFF) s = .next t ∧ Untouched [.regPort] s t)

/-- A push that passes every check, while an earlier entry of the bobbin still waits for its fetch, sets HOST_IDX to the index it carries and keeps a copy of each descriptor for its entry. A push that fails a check to a bobbin that is neither DRAINING nor STALE leaves HOST_IDX, sets crumb 3, adds one to PUSH_REJECTED of the bank and makes EV_BOB_PUSH_REJECTED pending. A push to a DRAINING or STALE bobbin changes nothing; one to a closed window is ABSENT and changes nothing. -/
def Obligations.BobbinPush : Prop :=
  ∀ (s : State) (b : Nat) (o : Octets) (burst : Bool),
    let B := bobn s b
    s.ic.wakeHit = none →
    (idxOpen s b = false → Answers (exec (.push b o burst) s) s [.regPort] fun t => t.reg = { resp := .absent, data := [] }) ∧
    (idxOpen s b = true → B.st = .draining ∨ B.st = .stale → Answers (exec (.push b o burst) s) s [.regPort] fun t => t.reg = { resp := .served, data := [] }) ∧
    (idxOpen s b = true → pushOk B o burst = true → tget [] B.pushed B.next = [] → (∀ i, i < oct o 4 → (B.hostIdx + i) % (2 * bsize B) ≠ B.next) →
      ∃ t, exec (.push b o burst) s = .next t ∧ (bobn t b).hostIdx = bits (ofLe (part o 0 4)) 0 17
        ∧ (∀ i, i < oct o 4 → tget [] (bobn t b).pushed ((B.hostIdx + i) % (2 * bsize B)) = part o (32 + 32 * i) 32)
        ∧ (bobn t b).blockIdx = B.blockIdx ∧ (∀ x, x ≠ b → bobn t x = bobn s x) ∧ Untouched [.bobbins, .regPort] s t) ∧
    (idxOpen s b = true → B.st ≠ .draining → B.st ≠ .stale → pushOk B o burst = false →
      ∃ t, exec (.push b o burst) s = .next t ∧ (bobn t b).hostIdx = B.hostIdx ∧ (bobn t b).crumbs = setBitAt B.crumbs 3 true
        ∧ tget 0 t.ctr.bank (8 * (b / 32768) + 1) = tget 0 s.ctr.bank (8 * (b / 32768) + 1) + 1 ∧ Pends t (bobGroup b) 1
        ∧ (∀ x, x ≠ b → bobn t x = bobn s x) ∧ Untouched ([.bobbins, .counters, .regPort] ++ loud) s t)

/-- While the registers of SQ answer: a write that sets ENABLE of a disabled ring, with the stored fields aligned, zeroes the four indices and sets STATE RUNNING, with no record outstanding where no interrupted instruction is to be reported, and else with the record of INTERRUPTED_BY_RESET and the slot REPORTED. While the ring is enabled or still stops, or its fields are not aligned, such a write stores PRIV and SIZE_LOG2 by their own conditions alone. A write that clears ENABLE of a ring that is halted, waits in WAIT or has nothing in progress disables it and drops what it holds; with a command or group in progress ENABLE reads 0 at once and the ring stops when that has ended (log 61). Other rings are unchanged. -/
def Obligations.RingEnableAndDisable : Prop :=
  ∀ (s : State) (r : Nat) (v : BitVec 64) (sec : Bool),
    let old := ring s r
    let R := storeSize (storePriv old (v.extractLsb' 2 2) sec) (v.extractLsb' 4 4)
    s.ic.wakeHit = none → sqOpen s = true →
    let busy := old.state ≠ .halted ∧ old.wait = none ∧ (old.held = true ∨ old.record ≠ none ∨ 0 < old.left)
    let fields := fun (o : Host.Outcome State Fault Refusal) => Answers o s [.rings, .regPort] fun t => ring t r = R ∧ ∀ q, q ≠ r → ring t q = ring s q
    (old.enable = false → old.stopping = false → alignedRing R = true →
      ∃ t, exec (.crEnable r v sec) s = .next t ∧ (ring t r).enable = true ∧ (ring t r).state = .running ∧ (ring t r).hostIdx = 0 ∧ (ring t r).blockIdx = 0
        ∧ (ring t r).cplHostIdx = 0 ∧ (ring t r).cplBlockIdx = 0 ∧ (ring t r).base = old.base ∧ (ring t r).cplBase = old.cplBase ∧ (ring t r).grant = old.grant
        ∧ (ring t r).priv = R.priv ∧ (ring t r).sizeLog2 = R.sizeLog2 ∧ (ring t r).held = false ∧ (ring t r).skip = none
        ∧ (((iir s r).valid && !(iir s r).reported) = false → (ring t r).record = none)
        ∧ (((iir s r).valid && !(iir s r).reported) = true →
            (iir t r).reported = true ∧ ∃ x, (ring t r).record = some x ∧ x.status = 0x31 ∧ x.opcode = (iir s r).opcode ∧ x.tag = (iir s r).tag ∧ x.result = (iir s r).progress)
        ∧ (∀ q, q ≠ r → ring t q = ring s q) ∧ Untouched [.rings, .regPort, .spindle] s t) ∧
    (old.enable = true ∨ old.stopping = true ∨ alignedRing R = false → fields (exec (.crEnable r v sec) s)) ∧
    (old.enable = true → ¬ busy →
      ∃ t, exec (.crDisable r v sec) s = .next t ∧ (ring t r).enable = false ∧ (ring t r).state = .disabled ∧ (ring t r).wait = none ∧ (ring t r).record = none
        ∧ (ring t r).left = 0 ∧ (ring t r).pushed = [] ∧ RingRegs { old with enable := false } (ring t r) ∧ (∀ q, q ≠ r → ring t q = ring s q) ∧ Untouched [.rings, .regPort] s t) ∧
    (old.enable = true → busy →
      ∃ t, exec (.crDisable r v sec) s = .next t ∧ ring t r = { old with enable := false, stopping := true }
        ∧ (∀ q, q ≠ r → ring t q = ring s q) ∧ Untouched [.rings, .regPort] s t) ∧
    (old.enable = false → fields (exec (.crDisable r v sec) s))

/-- While the registers of SQ answer: a write of PRIV stores 0, 1 or 2 when the ring is disabled and the access secure, and otherwise changes no ring; a write of SIZE_LOG2 stores 3 to 12 when the ring is disabled, and otherwise changes no ring; RESUME sets a HALTED ring RUNNING and leaves any other ring as it is. Other rings are unchanged. -/
def Obligations.RingFieldsAndResume : Prop :=
  ∀ (s : State) (r : Nat), s.ic.wakeHit = none → sqOpen s = true →
    (∀ p sec, ∃ t, exec (.crPrivWrite r p sec) s = .next t ∧ (∀ q, q ≠ r → ring t q = ring s q) ∧ Untouched [.rings, .regPort] s t
      ∧ ring t r = (if (ring s r).enable = false ∧ sec = true ∧ p ≠ 3 then { ring s r with priv := p } else ring s r)) ∧
    (∀ z : BitVec 4, ∃ t, exec (.crSizeWrite r z) s = .next t ∧ (∀ q, q ≠ r → ring t q = ring s q) ∧ Untouched [.rings, .regPort] s t
      ∧ ring t r = (if (ring s r).enable = false ∧ 3 ≤ z.toNat ∧ z.toNat ≤ 12 then { ring s r with sizeLog2 := z } else ring s r)) ∧
    (∃ t, exec (.resume r) s = .next t ∧ (∀ q, q ≠ r → ring t q = ring s q) ∧ Untouched [.rings, .regPort] s t
      ∧ ring t r = (if (ring s r).state = .halted then { ring s r with state := .running } else ring s r))

/-- While the registers of SQ answer: a full write of CR_IDX of an enabled ring of S entries moves the producer index to a value below 2S that does not overfill the ring; a full write of CR_CPL_IDX moves the consumer index to a value below 2S that releases no record not yet written. A rejected value leaves every index, sets IDX_ERR and makes EV_CR_INDEX_ERROR of the ring pending. A write to a disabled ring, or with fewer than all strobes, changes no ring and raises nothing. -/
def Obligations.RingDoorbells : Prop :=
  ∀ (s : State) (r : Nat) (v : BitVec 64),
    let R := ring s r
    let z := 2 ^ R.sizeLog2.toNat
    let w := v.toNat % 2 ^ 17
    let occ := (R.hostIdx.toNat + 2 * z - R.blockIdx.toNat) % (2 * z)
    let rec_ := (R.cplBlockIdx.toNat + 2 * z - R.cplHostIdx.toNat) % (2 * z)
    let okCmd := w < 2 * z ∧ (w + 2 * z - R.hostIdx.toNat) % (2 * z) ≤ z - occ
    let okCpl := w < 2 * z ∧ (w + 2 * z - R.cplHostIdx.toNat) % (2 * z) ≤ rec_
    s.ic.wakeHit = none → sqOpen s = true →
    (R.enable = true → okCmd → ∃ t, exec (.crDoorbell r v 0xFF) s = .next t ∧ { ring t r with fenceNeed := R.fenceNeed } = { R with hostIdx := v.setWidth 17 }
      ∧ (∀ q, q ≠ r → ring t q = ring s q) ∧ Untouched [.rings, .regPort] s t) ∧
    (R.enable = true → ¬ okCmd → ∃ t, exec (.crDoorbell r v 0xFF) s = .next t ∧ ring t r = { R with idxErr := true } ∧ Pends t (50 + r) 1
      ∧ (∀ q, q ≠ r → ring t q = ring s q) ∧ Untouched ([.rings, .regPort] ++ loud) s t) ∧
    (R.enable = true → okCpl → ∃ t, exec (.crCplIdxWrite r v 0xFF) s = .next t ∧ ring t r = { R with cplHostIdx := v.setWidth 17 }
      ∧ (∀ q, q ≠ r → ring t q = ring s q) ∧ Untouched [.rings, .regPort] s t) ∧
    (R.enable = true → ¬ okCpl → ∃ t, exec (.crCplIdxWrite r v 0xFF) s = .next t ∧ ring t r = { R with idxErr := true } ∧ Pends t (50 + r) 1
      ∧ (∀ q, q ≠ r → ring t q = ring s q) ∧ Untouched ([.rings, .regPort] ++ loud) s t) ∧
    (R.enable = false → (∃ t, exec (.crDoorbell r v 0xFF) s = .next t ∧ Untouched [.regPort] s t) ∧ ∃ t, exec (.crCplIdxWrite r v 0xFF) s = .next t ∧ Untouched [.regPort] s t) ∧
    (∀ x, x ≠ 0xFF → (∃ t, exec (.crDoorbell r v x) s = .next t ∧ Untouched [.regPort] s t) ∧ ∃ t, exec (.crCplIdxWrite r v x) s = .next t ∧ Untouched [.regPort] s t)

/-- While the registers of SQ answer, an accepted push to a ring moves its producer index and keeps a copy of each command; a push that fails a check leaves the indices, sets PUSH_REJ and makes EV_CR_PUSH_REJECTED pending; while they do not, each of the rows of a ring is ABSENT and changes nothing. While the register port is open (LIVE, with its start-up done, log 88) a write of IC_ENABLE_g stores the enables of the group, a write of IC_PENDING_g clears the bits it sets, one of a clear-on-one register of CK clears the bits it sets, and a write at a reserved offset, or of a burst that leaves its block, is UNMAPPED and changes nothing. A beat of fewer than all strobes changes no register. The identity registers take a write from the release of reset on and keep their values. A write to a closed port is ABSENT and changes nothing. -/
def Obligations.RingPushAndRegisterWrite : Prop :=
  ∀ (s : State), s.ic.wakeHit = none →
    let writes := fun (n : Nat) (l : List RegBeat) (sec : Bool) => exec (.registerWrite (BitVec.ofNat 26 n) l sec) s
    let refused := fun (x : Resp) (o : Host.Outcome State Fault Refusal) => Answers o s [.regPort] fun t => t.reg = { resp := x, data := [] }
    (∀ r o, sqOpen s = true → crPushOk (ring s r) o true = true →
      ∃ t, exec (.crPush r o true) s = .next t
        ∧ { ring t r with fenceNeed := (ring s r).fenceNeed, pushed := (ring s r).pushed } = { ring s r with hostIdx := BitVec.ofNat 17 (bits (ofLe (part o 0 4)) 0 17) }
        ∧ (∀ i, i < oct o 4 → tget [] (ring t r).pushed (((ring s r).hostIdx.toNat + i) % ringSize (ring s r)) = part o (32 + 32 * i) 32)
        ∧ (∀ q, q ≠ r → ring t q = ring s q) ∧ Untouched [.rings, .regPort] s t) ∧
    (∀ r o b, sqOpen s = true → crPushOk (ring s r) o b = false →
      ∃ t, exec (.crPush r o b) s = .next t ∧ ring t r = { ring s r with pushRej := true } ∧ Pends t (50 + r) 2
        ∧ (∀ q, q ≠ r → ring t q = ring s q) ∧ Untouched ([.rings, .regPort] ++ loud) s t) ∧
    (∀ r v x o b p z sec, sqOpen s = false →
      (∀ i ∈ [Instr.crEnable r v sec, .crDisable r v sec, .crPrivWrite r p sec, .crSizeWrite r z, .crDoorbell r v x, .crCplIdxWrite r v x, .crPush r o b, .resume r],
        refused .absent (exec i s))) ∧
    (∀ g (v : BitVec 64) sec, g < 64 → portOpen s = true →
      ∃ t, writes (0x100008 + 0x20 * g) [{ data := v }] sec = .next t ∧ t.reg.resp = .served
        ∧ (grp t g).en = v.setWidth 32 ∧ (grp t g).pend = (grp s g).pend ∧ (∀ q, q ≠ g → grp t q = grp s q) ∧ Untouched [.irq, .regPort] s t) ∧
    (∀ g (v : BitVec 64) sec, g < 64 → portOpen s = true →
      ∃ t, writes (0x100000 + 0x20 * g) [{ data := v }] sec = .next t ∧ t.reg.resp = .served
        ∧ (grp t g).pend = (grp s g).pend &&& ~~~ (v.setWidth 32) ∧ (grp t g).en = (grp s g).en ∧ (∀ q, q ≠ g → grp t q = grp s q) ∧ Untouched [.irq, .regPort] s t) ∧
    (∀ (v : BitVec 64) sec, portOpen s = true → ∃ t, writes 0x5008 [{ data := v }] sec = .next t ∧ t.reg.resp = .served
      ∧ t.ck.done = s.ck.done &&& ~~~ v ∧ t.ck.mismatch = s.ck.mismatch ∧ Untouched [.checks, .regPort] s t) ∧
    (∀ (a : BitVec 26) v sec, portOpen s = true → a.toNat % 8 = 0 → siteOf a.toNat = .reserved → refused .unmapped (writes a.toNat [{ data := v }] sec)) ∧
    (∀ (a : BitVec 26) l sec, portOpen s = true → 128 < a.toNat % 128 + 8 * l.length → refused .unmapped (writes a.toNat l sec)) ∧
    (∀ (a : BitVec 26) (v : BitVec 64) x sec, x ≠ 0xFF → portOpen s = true → a.toNat % 8 = 0 → siteOf a.toNat = .aon →
      refused .served (writes a.toNat [{ data := v, strobe := x }] sec)) ∧
    (∀ n (v : BitVec 64) sec, s.pw.edge ≠ .reset → n < 3 → refused .served (writes (8 * n) [{ data := v }] sec)) ∧
    (∀ (a : BitVec 26) l sec, portOpen s = false → s.pw.edge = .reset ∨ 0x100 ≤ a.toNat → refused .absent (writes a.toNat l sec))
end

