-- ==== Sys2Proof/Laws/Table.lean ====
section
/-! SUPPORT. Sparse tables: reading after writing, and the canonical form. -/
namespace Sys2Proof.Machine

variable {α : Type}

theorem tget_tdel_same (d : α) (t : Tbl α) (k : Nat) : tget d (tdel k t) k = d := by
  induction t with
  | nil => rfl
  | cons e t ih =>
    obtain ⟨j, w⟩ := e
    by_cases h : j = k
    · simp [tdel, h, ih]
    · simp [tdel, h, tget, ih]

theorem tget_tdel_other (d : α) (t : Tbl α) {k i : Nat} (h : i ≠ k) : tget d (tdel k t) i = tget d t i := by
  induction t with
  | nil => rfl
  | cons e t ih =>
    obtain ⟨j, w⟩ := e
    by_cases hj : j = k
    · subst hj
      simp only [tdel, tget, if_true, if_neg (Ne.symm h)]
      exact ih
    · simp only [tdel, if_neg hj, tget]
      by_cases hi : j = i
      · simp [hi]
      · simp [hi, ih]

theorem tget_tput_same (d : α) (t : Tbl α) (k : Nat) (v : α) : tget d (tput k v t) k = v := by
  induction t with
  | nil => simp [tput, tget]
  | cons e t ih =>
    obtain ⟨j, w⟩ := e
    by_cases h : j < k
    · simp only [tput, h, if_true, tget, if_neg (Nat.ne_of_lt h)]
      exact ih
    · simp [tput, h, tget]

theorem tget_tput_other (d : α) (t : Tbl α) {k i : Nat} (v : α) (h : i ≠ k) : tget d (tput k v t) i = tget d t i := by
  induction t with
  | nil => simp [tput, tget, Ne.symm h]
  | cons e t ih =>
    obtain ⟨j, w⟩ := e
    by_cases hj : j < k
    · simp [tput, hj, tget, ih]
    · simp [tput, hj, tget, Ne.symm h]

/-- Reading the key just written. -/
@[simp] theorem tget_tset_same [DecidableEq α] (d : α) (t : Tbl α) (k : Nat) (v : α) : tget d (tset d t k v) k = v := by
  unfold tset
  split
  · rename_i h; rw [h]; exact tget_tdel_same d t k
  · exact tget_tput_same d _ k v

/-- Reading any other key. -/
theorem tget_tset_other [DecidableEq α] (d : α) (t : Tbl α) {k i : Nat} (v : α) (h : i ≠ k) :
    tget d (tset d t k v) i = tget d t i := by
  unfold tset
  split
  · exact tget_tdel_other d t h
  · rw [tget_tput_other d _ v h]; exact tget_tdel_other d t h

/-- Every listed key is above `b`, keys rise, and no entry is the default. -/
def tabove [DecidableEq α] (d : α) : Option Nat → Tbl α → Prop
  | _, [] => True
  | b, (j, v) :: t => (match b with | some x => x < j | none => True) ∧ v ≠ d ∧ tabove d (some j) t

theorem twf_iff [DecidableEq α] (d : α) (t : Tbl α) : twf d t = true ↔ tabove d none t := by
  have key : ∀ (t : Tbl α) (j : Nat) (v : α), twf d ((j, v) :: t) = true ↔ v ≠ d ∧ tabove d (some j) t := by
    intro t
    induction t with
    | nil => intro j v; simp [twf, tabove]
    | cons e t ih =>
      intro j v
      obtain ⟨k, w⟩ := e
      simp only [twf, Bool.and_eq_true, decide_eq_true_eq, ih, tabove]
      exact ⟨fun ⟨⟨a, b⟩, c⟩ => ⟨b, a, c⟩, fun ⟨b, a, c⟩ => ⟨⟨a, b⟩, c⟩⟩
  cases t with
  | nil => simp [twf, tabove]
  | cons e t => obtain ⟨j, v⟩ := e; rw [key]; simp [tabove]

theorem tabove_weaken [DecidableEq α] (d : α) {a b : Nat} (h : a ≤ b) (t : Tbl α) (ht : tabove d (some b) t) : tabove d (some a) t := by
  cases t with
  | nil => trivial
  | cons e t => obtain ⟨j, v⟩ := e; simp only [tabove] at *; exact ⟨by omega, ht.2⟩

theorem tabove_none [DecidableEq α] (d : α) {b : Nat} (t : Tbl α) (ht : tabove d (some b) t) : tabove d none t := by
  cases t with
  | nil => trivial
  | cons e t => obtain ⟨j, v⟩ := e; simp only [tabove] at *; exact ⟨trivial, ht.2⟩

theorem tabove_tdel [DecidableEq α] (d : α) (k : Nat) (t : Tbl α) : ∀ b, tabove d b t → tabove d b (tdel k t) := by
  induction t with
  | nil => intro b h; trivial
  | cons e t ih =>
    obtain ⟨j, v⟩ := e
    intro b h
    simp only [tabove] at h
    by_cases hj : j = k
    · simp only [tdel, hj, if_true]
      apply ih
      cases b with
      | none => exact tabove_none d t h.2.2
      | some x => exact tabove_weaken d (Nat.le_of_lt h.1) t h.2.2
    · simp only [tdel, hj, if_false, tabove]
      exact ⟨h.1, h.2.1, ih _ h.2.2⟩

theorem tabove_tput [DecidableEq α] (d : α) (k : Nat) (v : α) (hv : v ≠ d) (t : Tbl α) :
    ∀ b, (match b with | some x => x < k | none => True) → (∀ w, (k, w) ∉ t) → tabove d b t → tabove d b (tput k v t) := by
  induction t with
  | nil => intro b hb _ _; exact ⟨hb, hv, trivial⟩
  | cons e t ih =>
    obtain ⟨j, w⟩ := e
    intro b hb hk h
    simp only [tabove] at h
    by_cases hj : j < k
    · simp only [tput, hj, if_true, tabove]
      exact ⟨h.1, h.2.1, ih (some j) hj (fun w' hm => hk w' (List.mem_cons_of_mem _ hm)) h.2.2⟩
    · have hne : j ≠ k := fun he => hk w (by rw [he]; exact List.mem_cons_self)
      simp only [tput, hj, if_false, tabove]
      exact ⟨hb, hv, by omega, h.2⟩

theorem tdel_not_mem (k : Nat) (t : Tbl α) : ∀ w, (k, w) ∉ tdel k t := by
  induction t with
  | nil => intro w h; cases h
  | cons e t ih =>
    obtain ⟨j, v⟩ := e
    intro w h
    by_cases hj : j = k
    · simp only [tdel, hj, if_true] at h; exact ih w h
    · simp only [tdel, hj, if_false, List.mem_cons, Prod.mk.injEq] at h
      rcases h with h | h
      · exact hj h.1.symm
      · exact ih w h

/-- A write keeps the canonical form. -/
theorem twf_tset [DecidableEq α] (d : α) (t : Tbl α) (k : Nat) (v : α) (h : twf d t = true) : twf d (tset d t k v) = true := by
  rw [twf_iff] at *
  unfold tset
  split
  · exact tabove_tdel d k t none h
  · exact tabove_tput d k v ‹_› _ none trivial (tdel_not_mem k t) (tabove_tdel d k t none h)

/-- A key that is not listed reads as the default. -/
theorem tget_unlisted (d : α) (t : Tbl α) (k : Nat) (h : ∀ e ∈ t, e.1 ≠ k) : tget d t k = d := by
  induction t with
  | nil => rfl
  | cons e t ih =>
    obtain ⟨j, w⟩ := e
    rw [tget, if_neg (h (j, w) List.mem_cons_self)]
    exact ih fun e he => h e (List.mem_cons_of_mem _ he)

/-- Reading a table whose listed entries were changed, where the change keeps the default. -/
theorem tget_tmap [DecidableEq α] (d : α) (f : Nat → α → α) (t : Tbl α) (k : Nat) (h : f k d = d) :
    tget d (tmap d f t) k = f k (tget d t k) := by
  induction t with
  | nil => exact h.symm
  | cons e t ih =>
    obtain ⟨j, w⟩ := e
    by_cases hj : j = k
    · subst hj; simp [tmap, tget]
    · rw [tmap, tget_tset_other _ _ _ (Ne.symm hj), ih, tget, if_neg hj]

theorem mem_tdel {e : Nat × α} {k : Nat} {t : Tbl α} (h : e ∈ tdel k t) : e ∈ t := by
  induction t with
  | nil => exact h
  | cons a t ih =>
    obtain ⟨j, v⟩ := a
    rw [tdel] at h
    split at h
    · exact List.mem_cons_of_mem _ (ih h)
    · rcases List.mem_cons.1 h with h | h
      · rw [h]; exact List.mem_cons_self
      · exact List.mem_cons_of_mem _ (ih h)

theorem mem_tput {e : Nat × α} {k : Nat} {v : α} {t : Tbl α} (h : e ∈ tput k v t) : e = (k, v) ∨ e ∈ t := by
  induction t with
  | nil => exact .inl (List.mem_singleton.1 h)
  | cons a t ih =>
    obtain ⟨j, w⟩ := a
    rw [tput] at h
    split at h
    · rcases List.mem_cons.1 h with h | h
      · exact .inr (by rw [h]; exact List.mem_cons_self)
      · exact (ih h).imp id (List.mem_cons_of_mem _)
    · exact (List.mem_cons.1 h)

/-- An entry of a table after a write is the one written or was there before. -/
theorem mem_tset [DecidableEq α] {d : α} {e : Nat × α} {k : Nat} {v : α} {t : Tbl α} (h : e ∈ tset d t k v) : e = (k, v) ∨ e ∈ t := by
  unfold tset at h
  split at h
  · exact .inr (mem_tdel h)
  · exact (mem_tput h).imp id mem_tdel

theorem mem_tmap [DecidableEq α] {d : α} {f : Nat → α → α} {e : Nat × α} {t : Tbl α} (h : e ∈ tmap d f t) : ∃ a ∈ t, e = (a.1, f a.1 a.2) := by
  induction t with
  | nil => cases h
  | cons a t ih =>
    obtain ⟨j, v⟩ := a
    rcases mem_tset h with h | h
    · exact ⟨(j, v), List.mem_cons_self, h⟩
    · obtain ⟨a, ha, he⟩ := ih h
      exact ⟨a, List.mem_cons_of_mem _ ha, he⟩

end Sys2Proof.Machine
end

