-- ==== Sys2Proof/Laws/State.lean ====
section
/-! SUPPORT. What each named update of the state leaves as it was, field by field, and reading back what it wrote. -/
namespace Sys2Proof.Machine

/-- A table whose default depends on the key keeps its other entries. -/
theorem tset_default_other {α : Type} [DecidableEq α] (d e : α) (t : Tbl α) {k i : Nat} (v : α) (h : i ≠ k) :
    tget e (tset d t k v) i = tget e t i := by
  unfold tset
  split
  · exact tget_tdel_other e t h
  · rw [tget_tput_other e _ v h]; exact tget_tdel_other e t h
theorem ring_table_other (t : Tbl Ring) {k i : Nat} (x : Ring) (h : i ≠ k) : tget (ring0 i) (tset (ring0 k) t k x) i = tget (ring0 i) t i :=
  tset_default_other _ _ _ _ h

/-! ### setRing -/
@[simp] theorem setRing_tm (s : State) (k : Nat) (x : Ring) : (setRing s k x).tm = s.tm := rfl
@[simp] theorem setRing_tu (s : State) (k : Nat) (x : Ring) : (setRing s k x).tu = s.tu := rfl
@[simp] theorem setRing_st0 (s : State) (k : Nat) (x : Ring) : (setRing s k x).st0 = s.st0 := rfl
@[simp] theorem setRing_sq (s : State) (k : Nat) (x : Ring) : (setRing s k x).sq = s.sq := rfl
@[simp] theorem setRing_ic (s : State) (k : Nat) (x : Ring) : (setRing s k x).ic = s.ic := rfl
@[simp] theorem setRing_pw (s : State) (k : Nat) (x : Ring) : (setRing s k x).pw = s.pw := rfl
@[simp] theorem setRing_port (s : State) (k : Nat) (x : Ring) : (setRing s k x).port = s.port := rfl
@[simp] theorem setRing_ctr (s : State) (k : Nat) (x : Ring) : (setRing s k x).ctr = s.ctr := rfl
@[simp] theorem setRing_str (s : State) (k : Nat) (x : Ring) : (setRing s k x).str = s.str := rfl
@[simp] theorem setRing_pc (s : State) (k : Nat) (x : Ring) : (setRing s k x).pc = s.pc := rfl
@[simp] theorem setRing_spr (s : State) (k : Nat) (x : Ring) : (setRing s k x).spr = s.spr := rfl
@[simp] theorem setRing_stn (s : State) (k : Nat) (x : Ring) : (setRing s k x).stn = s.stn := rfl
@[simp] theorem setRing_bob (s : State) (k : Nat) (x : Ring) : (setRing s k x).bob = s.bob := rfl
@[simp] theorem setRing_skn (s : State) (k : Nat) (x : Ring) : (setRing s k x).skn = s.skn := rfl
@[simp] theorem setRing_ct (s : State) (k : Nat) (x : Ring) : (setRing s k x).ct = s.ct := rfl
@[simp] theorem setRing_tx (s : State) (k : Nat) (x : Ring) : (setRing s k x).tx = s.tx := rfl
@[simp] theorem setRing_rx (s : State) (k : Nat) (x : Ring) : (setRing s k x).rx = s.rx := rfl
@[simp] theorem setRing_ck (s : State) (k : Nat) (x : Ring) : (setRing s k x).ck = s.ck := rfl
@[simp] theorem setRing_ld (s : State) (k : Nat) (x : Ring) : (setRing s k x).ld = s.ld := rfl
@[simp] theorem setRing_tst (s : State) (k : Nat) (x : Ring) : (setRing s k x).tst = s.tst := rfl
@[simp] theorem setRing_stk (s : State) (k : Nat) (x : Ring) : (setRing s k x).stk = s.stk := rfl
@[simp] theorem setRing_reg (s : State) (k : Nat) (x : Ring) : (setRing s k x).reg = s.reg := rfl
@[simp] theorem setRing_mem (s : State) (k : Nat) (x : Ring) : (setRing s k x).mem = s.mem := rfl
@[simp] theorem setRing_pending (s : State) (k : Nat) (x : Ring) : (setRing s k x).pending = s.pending := rfl
@[simp] theorem ring_setRing (s : State) (k : Nat) (x : Ring) : ring (setRing s k x) k = x := tget_tset_same _ _ _ _
theorem ring_setRing_other (s : State) {k i : Nat} (x : Ring) (h : i ≠ k) : ring (setRing s k x) i = ring s i := by
  unfold ring setRing
  simp only
  exact ring_table_other s.cr x h

/-! ### setGrp -/
@[simp] theorem setGrp_tm (s : State) (k : Nat) (x : IrqGroup) : (setGrp s k x).tm = s.tm := rfl
@[simp] theorem setGrp_tu (s : State) (k : Nat) (x : IrqGroup) : (setGrp s k x).tu = s.tu := rfl
@[simp] theorem setGrp_st0 (s : State) (k : Nat) (x : IrqGroup) : (setGrp s k x).st0 = s.st0 := rfl
@[simp] theorem setGrp_cr (s : State) (k : Nat) (x : IrqGroup) : (setGrp s k x).cr = s.cr := rfl
@[simp] theorem setGrp_sq (s : State) (k : Nat) (x : IrqGroup) : (setGrp s k x).sq = s.sq := rfl
@[simp] theorem setGrp_pw (s : State) (k : Nat) (x : IrqGroup) : (setGrp s k x).pw = s.pw := rfl
@[simp] theorem setGrp_port (s : State) (k : Nat) (x : IrqGroup) : (setGrp s k x).port = s.port := rfl
@[simp] theorem setGrp_ctr (s : State) (k : Nat) (x : IrqGroup) : (setGrp s k x).ctr = s.ctr := rfl
@[simp] theorem setGrp_str (s : State) (k : Nat) (x : IrqGroup) : (setGrp s k x).str = s.str := rfl
@[simp] theorem setGrp_pc (s : State) (k : Nat) (x : IrqGroup) : (setGrp s k x).pc = s.pc := rfl
@[simp] theorem setGrp_spr (s : State) (k : Nat) (x : IrqGroup) : (setGrp s k x).spr = s.spr := rfl
@[simp] theorem setGrp_stn (s : State) (k : Nat) (x : IrqGroup) : (setGrp s k x).stn = s.stn := rfl
@[simp] theorem setGrp_bob (s : State) (k : Nat) (x : IrqGroup) : (setGrp s k x).bob = s.bob := rfl
@[simp] theorem setGrp_skn (s : State) (k : Nat) (x : IrqGroup) : (setGrp s k x).skn = s.skn := rfl
@[simp] theorem setGrp_ct (s : State) (k : Nat) (x : IrqGroup) : (setGrp s k x).ct = s.ct := rfl
@[simp] theorem setGrp_tx (s : State) (k : Nat) (x : IrqGroup) : (setGrp s k x).tx = s.tx := rfl
@[simp] theorem setGrp_rx (s : State) (k : Nat) (x : IrqGroup) : (setGrp s k x).rx = s.rx := rfl
@[simp] theorem setGrp_ck (s : State) (k : Nat) (x : IrqGroup) : (setGrp s k x).ck = s.ck := rfl
@[simp] theorem setGrp_ld (s : State) (k : Nat) (x : IrqGroup) : (setGrp s k x).ld = s.ld := rfl
@[simp] theorem setGrp_tst (s : State) (k : Nat) (x : IrqGroup) : (setGrp s k x).tst = s.tst := rfl
@[simp] theorem setGrp_stk (s : State) (k : Nat) (x : IrqGroup) : (setGrp s k x).stk = s.stk := rfl
@[simp] theorem setGrp_reg (s : State) (k : Nat) (x : IrqGroup) : (setGrp s k x).reg = s.reg := rfl
@[simp] theorem setGrp_mem (s : State) (k : Nat) (x : IrqGroup) : (setGrp s k x).mem = s.mem := rfl
@[simp] theorem setGrp_pending (s : State) (k : Nat) (x : IrqGroup) : (setGrp s k x).pending = s.pending := rfl
@[simp] theorem setGrp_ic_target (s : State) (k : Nat) (x : IrqGroup) : (setGrp s k x).ic.target = s.ic.target := rfl
@[simp] theorem setGrp_ic_filter (s : State) (k : Nat) (x : IrqGroup) : (setGrp s k x).ic.filter = s.ic.filter := rfl
@[simp] theorem setGrp_ic_serial (s : State) (k : Nat) (x : IrqGroup) : (setGrp s k x).ic.serial = s.ic.serial := rfl
@[simp] theorem setGrp_ic_lastRaise (s : State) (k : Nat) (x : IrqGroup) : (setGrp s k x).ic.lastRaise = s.ic.lastRaise := rfl
@[simp] theorem setGrp_ic_wakeHit (s : State) (k : Nat) (x : IrqGroup) : (setGrp s k x).ic.wakeHit = s.ic.wakeHit := rfl
@[simp] theorem setGrp_ic_out (s : State) (k : Nat) (x : IrqGroup) : (setGrp s k x).ic.out = s.ic.out := rfl
@[simp] theorem setGrp_ic_wakeOut (s : State) (k : Nat) (x : IrqGroup) : (setGrp s k x).ic.wakeOut = s.ic.wakeOut := rfl
@[simp] theorem grp_setGrp (s : State) (k : Nat) (x : IrqGroup) : grp (setGrp s k x) k = x := tget_tset_same _ _ _ _
theorem grp_setGrp_other (s : State) {k i : Nat} (x : IrqGroup) (h : i ≠ k) : grp (setGrp s k x) i = grp s i := tget_tset_other _ _ _ h

/-! ### setTgt -/
@[simp] theorem setTgt_tm (s : State) (k : Nat) (x : IrqTarget) : (setTgt s k x).tm = s.tm := rfl
@[simp] theorem setTgt_tu (s : State) (k : Nat) (x : IrqTarget) : (setTgt s k x).tu = s.tu := rfl
@[simp] theorem setTgt_st0 (s : State) (k : Nat) (x : IrqTarget) : (setTgt s k x).st0 = s.st0 := rfl
@[simp] theorem setTgt_cr (s : State) (k : Nat) (x : IrqTarget) : (setTgt s k x).cr = s.cr := rfl
@[simp] theorem setTgt_sq (s : State) (k : Nat) (x : IrqTarget) : (setTgt s k x).sq = s.sq := rfl
@[simp] theorem setTgt_pw (s : State) (k : Nat) (x : IrqTarget) : (setTgt s k x).pw = s.pw := rfl
@[simp] theorem setTgt_port (s : State) (k : Nat) (x : IrqTarget) : (setTgt s k x).port = s.port := rfl
@[simp] theorem setTgt_ctr (s : State) (k : Nat) (x : IrqTarget) : (setTgt s k x).ctr = s.ctr := rfl
@[simp] theorem setTgt_str (s : State) (k : Nat) (x : IrqTarget) : (setTgt s k x).str = s.str := rfl
@[simp] theorem setTgt_pc (s : State) (k : Nat) (x : IrqTarget) : (setTgt s k x).pc = s.pc := rfl
@[simp] theorem setTgt_spr (s : State) (k : Nat) (x : IrqTarget) : (setTgt s k x).spr = s.spr := rfl
@[simp] theorem setTgt_stn (s : State) (k : Nat) (x : IrqTarget) : (setTgt s k x).stn = s.stn := rfl
@[simp] theorem setTgt_bob (s : State) (k : Nat) (x : IrqTarget) : (setTgt s k x).bob = s.bob := rfl
@[simp] theorem setTgt_skn (s : State) (k : Nat) (x : IrqTarget) : (setTgt s k x).skn = s.skn := rfl
@[simp] theorem setTgt_ct (s : State) (k : Nat) (x : IrqTarget) : (setTgt s k x).ct = s.ct := rfl
@[simp] theorem setTgt_tx (s : State) (k : Nat) (x : IrqTarget) : (setTgt s k x).tx = s.tx := rfl
@[simp] theorem setTgt_rx (s : State) (k : Nat) (x : IrqTarget) : (setTgt s k x).rx = s.rx := rfl
@[simp] theorem setTgt_ck (s : State) (k : Nat) (x : IrqTarget) : (setTgt s k x).ck = s.ck := rfl
@[simp] theorem setTgt_ld (s : State) (k : Nat) (x : IrqTarget) : (setTgt s k x).ld = s.ld := rfl
@[simp] theorem setTgt_tst (s : State) (k : Nat) (x : IrqTarget) : (setTgt s k x).tst = s.tst := rfl
@[simp] theorem setTgt_stk (s : State) (k : Nat) (x : IrqTarget) : (setTgt s k x).stk = s.stk := rfl
@[simp] theorem setTgt_reg (s : State) (k : Nat) (x : IrqTarget) : (setTgt s k x).reg = s.reg := rfl
@[simp] theorem setTgt_mem (s : State) (k : Nat) (x : IrqTarget) : (setTgt s k x).mem = s.mem := rfl
@[simp] theorem setTgt_pending (s : State) (k : Nat) (x : IrqTarget) : (setTgt s k x).pending = s.pending := rfl
@[simp] theorem setTgt_ic_group (s : State) (k : Nat) (x : IrqTarget) : (setTgt s k x).ic.group = s.ic.group := rfl
@[simp] theorem setTgt_ic_filter (s : State) (k : Nat) (x : IrqTarget) : (setTgt s k x).ic.filter = s.ic.filter := rfl
@[simp] theorem setTgt_ic_serial (s : State) (k : Nat) (x : IrqTarget) : (setTgt s k x).ic.serial = s.ic.serial := rfl
@[simp] theorem setTgt_ic_lastRaise (s : State) (k : Nat) (x : IrqTarget) : (setTgt s k x).ic.lastRaise = s.ic.lastRaise := rfl
@[simp] theorem setTgt_ic_wakeHit (s : State) (k : Nat) (x : IrqTarget) : (setTgt s k x).ic.wakeHit = s.ic.wakeHit := rfl
@[simp] theorem setTgt_ic_out (s : State) (k : Nat) (x : IrqTarget) : (setTgt s k x).ic.out = s.ic.out := rfl
@[simp] theorem setTgt_ic_wakeOut (s : State) (k : Nat) (x : IrqTarget) : (setTgt s k x).ic.wakeOut = s.ic.wakeOut := rfl
@[simp] theorem tgt_setTgt (s : State) (k : Nat) (x : IrqTarget) : tgt (setTgt s k x) k = x := tget_tset_same _ _ _ _
theorem tgt_setTgt_other (s : State) {k i : Nat} (x : IrqTarget) (h : i ≠ k) : tgt (setTgt s k x) i = tgt s i := tget_tset_other _ _ _ h

/-! ### setFlt -/
@[simp] theorem setFlt_tm (s : State) (k : Nat) (x : EvtFilter) : (setFlt s k x).tm = s.tm := rfl
@[simp] theorem setFlt_tu (s : State) (k : Nat) (x : EvtFilter) : (setFlt s k x).tu = s.tu := rfl
@[simp] theorem setFlt_st0 (s : State) (k : Nat) (x : EvtFilter) : (setFlt s k x).st0 = s.st0 := rfl
@[simp] theorem setFlt_cr (s : State) (k : Nat) (x : EvtFilter) : (setFlt s k x).cr = s.cr := rfl
@[simp] theorem setFlt_sq (s : State) (k : Nat) (x : EvtFilter) : (setFlt s k x).sq = s.sq := rfl
@[simp] theorem setFlt_pw (s : State) (k : Nat) (x : EvtFilter) : (setFlt s k x).pw = s.pw := rfl
@[simp] theorem setFlt_port (s : State) (k : Nat) (x : EvtFilter) : (setFlt s k x).port = s.port := rfl
@[simp] theorem setFlt_ctr (s : State) (k : Nat) (x : EvtFilter) : (setFlt s k x).ctr = s.ctr := rfl
@[simp] theorem setFlt_str (s : State) (k : Nat) (x : EvtFilter) : (setFlt s k x).str = s.str := rfl
@[simp] theorem setFlt_pc (s : State) (k : Nat) (x : EvtFilter) : (setFlt s k x).pc = s.pc := rfl
@[simp] theorem setFlt_spr (s : State) (k : Nat) (x : EvtFilter) : (setFlt s k x).spr = s.spr := rfl
@[simp] theorem setFlt_stn (s : State) (k : Nat) (x : EvtFilter) : (setFlt s k x).stn = s.stn := rfl
@[simp] theorem setFlt_bob (s : State) (k : Nat) (x : EvtFilter) : (setFlt s k x).bob = s.bob := rfl
@[simp] theorem setFlt_skn (s : State) (k : Nat) (x : EvtFilter) : (setFlt s k x).skn = s.skn := rfl
@[simp] theorem setFlt_ct (s : State) (k : Nat) (x : EvtFilter) : (setFlt s k x).ct = s.ct := rfl
@[simp] theorem setFlt_tx (s : State) (k : Nat) (x : EvtFilter) : (setFlt s k x).tx = s.tx := rfl
@[simp] theorem setFlt_rx (s : State) (k : Nat) (x : EvtFilter) : (setFlt s k x).rx = s.rx := rfl
@[simp] theorem setFlt_ck (s : State) (k : Nat) (x : EvtFilter) : (setFlt s k x).ck = s.ck := rfl
@[simp] theorem setFlt_ld (s : State) (k : Nat) (x : EvtFilter) : (setFlt s k x).ld = s.ld := rfl
@[simp] theorem setFlt_tst (s : State) (k : Nat) (x : EvtFilter) : (setFlt s k x).tst = s.tst := rfl
@[simp] theorem setFlt_stk (s : State) (k : Nat) (x : EvtFilter) : (setFlt s k x).stk = s.stk := rfl
@[simp] theorem setFlt_reg (s : State) (k : Nat) (x : EvtFilter) : (setFlt s k x).reg = s.reg := rfl
@[simp] theorem setFlt_mem (s : State) (k : Nat) (x : EvtFilter) : (setFlt s k x).mem = s.mem := rfl
@[simp] theorem setFlt_pending (s : State) (k : Nat) (x : EvtFilter) : (setFlt s k x).pending = s.pending := rfl
@[simp] theorem setFlt_ic_group (s : State) (k : Nat) (x : EvtFilter) : (setFlt s k x).ic.group = s.ic.group := rfl
@[simp] theorem setFlt_ic_target (s : State) (k : Nat) (x : EvtFilter) : (setFlt s k x).ic.target = s.ic.target := rfl
@[simp] theorem setFlt_ic_serial (s : State) (k : Nat) (x : EvtFilter) : (setFlt s k x).ic.serial = s.ic.serial := rfl
@[simp] theorem setFlt_ic_lastRaise (s : State) (k : Nat) (x : EvtFilter) : (setFlt s k x).ic.lastRaise = s.ic.lastRaise := rfl
@[simp] theorem setFlt_ic_wakeHit (s : State) (k : Nat) (x : EvtFilter) : (setFlt s k x).ic.wakeHit = s.ic.wakeHit := rfl
@[simp] theorem setFlt_ic_out (s : State) (k : Nat) (x : EvtFilter) : (setFlt s k x).ic.out = s.ic.out := rfl
@[simp] theorem setFlt_ic_wakeOut (s : State) (k : Nat) (x : EvtFilter) : (setFlt s k x).ic.wakeOut = s.ic.wakeOut := rfl
@[simp] theorem flt_setFlt (s : State) (k : Nat) (x : EvtFilter) : flt (setFlt s k x) k = x := tget_tset_same _ _ _ _
theorem flt_setFlt_other (s : State) {k i : Nat} (x : EvtFilter) (h : i ≠ k) : flt (setFlt s k x) i = flt s i := tget_tset_other _ _ _ h

/-! ### setDom -/
@[simp] theorem setDom_tm (s : State) (k : Nat) (x : Domain) : (setDom s k x).tm = s.tm := rfl
@[simp] theorem setDom_tu (s : State) (k : Nat) (x : Domain) : (setDom s k x).tu = s.tu := rfl
@[simp] theorem setDom_st0 (s : State) (k : Nat) (x : Domain) : (setDom s k x).st0 = s.st0 := rfl
@[simp] theorem setDom_cr (s : State) (k : Nat) (x : Domain) : (setDom s k x).cr = s.cr := rfl
@[simp] theorem setDom_sq (s : State) (k : Nat) (x : Domain) : (setDom s k x).sq = s.sq := rfl
@[simp] theorem setDom_ic (s : State) (k : Nat) (x : Domain) : (setDom s k x).ic = s.ic := rfl
@[simp] theorem setDom_port (s : State) (k : Nat) (x : Domain) : (setDom s k x).port = s.port := rfl
@[simp] theorem setDom_ctr (s : State) (k : Nat) (x : Domain) : (setDom s k x).ctr = s.ctr := rfl
@[simp] theorem setDom_str (s : State) (k : Nat) (x : Domain) : (setDom s k x).str = s.str := rfl
@[simp] theorem setDom_pc (s : State) (k : Nat) (x : Domain) : (setDom s k x).pc = s.pc := rfl
@[simp] theorem setDom_spr (s : State) (k : Nat) (x : Domain) : (setDom s k x).spr = s.spr := rfl
@[simp] theorem setDom_stn (s : State) (k : Nat) (x : Domain) : (setDom s k x).stn = s.stn := rfl
@[simp] theorem setDom_bob (s : State) (k : Nat) (x : Domain) : (setDom s k x).bob = s.bob := rfl
@[simp] theorem setDom_skn (s : State) (k : Nat) (x : Domain) : (setDom s k x).skn = s.skn := rfl
@[simp] theorem setDom_ct (s : State) (k : Nat) (x : Domain) : (setDom s k x).ct = s.ct := rfl
@[simp] theorem setDom_tx (s : State) (k : Nat) (x : Domain) : (setDom s k x).tx = s.tx := rfl
@[simp] theorem setDom_rx (s : State) (k : Nat) (x : Domain) : (setDom s k x).rx = s.rx := rfl
@[simp] theorem setDom_ck (s : State) (k : Nat) (x : Domain) : (setDom s k x).ck = s.ck := rfl
@[simp] theorem setDom_ld (s : State) (k : Nat) (x : Domain) : (setDom s k x).ld = s.ld := rfl
@[simp] theorem setDom_tst (s : State) (k : Nat) (x : Domain) : (setDom s k x).tst = s.tst := rfl
@[simp] theorem setDom_stk (s : State) (k : Nat) (x : Domain) : (setDom s k x).stk = s.stk := rfl
@[simp] theorem setDom_reg (s : State) (k : Nat) (x : Domain) : (setDom s k x).reg = s.reg := rfl
@[simp] theorem setDom_mem (s : State) (k : Nat) (x : Domain) : (setDom s k x).mem = s.mem := rfl
@[simp] theorem setDom_pending (s : State) (k : Nat) (x : Domain) : (setDom s k x).pending = s.pending := rfl
@[simp] theorem setDom_pw_vote (s : State) (k : Nat) (x : Domain) : (setDom s k x).pw.vote = s.pw.vote := rfl
@[simp] theorem setDom_pw_retainMask (s : State) (k : Nat) (x : Domain) : (setDom s k x).pw.retainMask = s.pw.retainMask := rfl
@[simp] theorem setDom_pw_releaseMask (s : State) (k : Nat) (x : Domain) : (setDom s k x).pw.releaseMask = s.pw.releaseMask := rfl
@[simp] theorem setDom_pw_retainNow (s : State) (k : Nat) (x : Domain) : (setDom s k x).pw.retainNow = s.pw.retainNow := rfl
@[simp] theorem setDom_pw_releaseNow (s : State) (k : Nat) (x : Domain) : (setDom s k x).pw.releaseNow = s.pw.releaseNow := rfl
@[simp] theorem setDom_pw_linkMask (s : State) (k : Nat) (x : Domain) : (setDom s k x).pw.linkMask = s.pw.linkMask := rfl
@[simp] theorem setDom_pw_frameMask (s : State) (k : Nat) (x : Domain) : (setDom s k x).pw.frameMask = s.pw.frameMask := rfl
@[simp] theorem setDom_pw_evtMask (s : State) (k : Nat) (x : Domain) : (setDom s k x).pw.evtMask = s.pw.evtMask := rfl
@[simp] theorem setDom_pw_timerEn (s : State) (k : Nat) (x : Domain) : (setDom s k x).pw.timerEn = s.pw.timerEn := rfl
@[simp] theorem setDom_pw_timerMs (s : State) (k : Nat) (x : Domain) : (setDom s k x).pw.timerMs = s.pw.timerMs := rfl
@[simp] theorem setDom_pw_lastWake (s : State) (k : Nat) (x : Domain) : (setDom s k x).pw.lastWake = s.pw.lastWake := rfl
@[simp] theorem setDom_pw_wakeAt (s : State) (k : Nat) (x : Domain) : (setDom s k x).pw.wakeAt = s.pw.wakeAt := rfl
@[simp] theorem setDom_pw_sleep (s : State) (k : Nat) (x : Domain) : (setDom s k x).pw.sleep = s.pw.sleep := rfl
@[simp] theorem setDom_pw_isoAt (s : State) (k : Nat) (x : Domain) : (setDom s k x).pw.isoAt = s.pw.isoAt := rfl
@[simp] theorem setDom_pw_sleepSet (s : State) (k : Nat) (x : Domain) : (setDom s k x).pw.sleepSet = s.pw.sleepSet := rfl
@[simp] theorem setDom_pw_wakeSet (s : State) (k : Nat) (x : Domain) : (setDom s k x).pw.wakeSet = s.pw.wakeSet := rfl
@[simp] theorem setDom_pw_slot (s : State) (k : Nat) (x : Domain) : (setDom s k x).pw.slot = s.pw.slot := rfl
@[simp] theorem setDom_pw_slotValid (s : State) (k : Nat) (x : Domain) : (setDom s k x).pw.slotValid = s.pw.slotValid := rfl
@[simp] theorem setDom_pw_indexOpen (s : State) (k : Nat) (x : Domain) : (setDom s k x).pw.indexOpen = s.pw.indexOpen := rfl
@[simp] theorem setDom_pw_notice (s : State) (k : Nat) (x : Domain) : (setDom s k x).pw.notice = s.pw.notice := rfl
@[simp] theorem setDom_pw_edge (s : State) (k : Nat) (x : Domain) : (setDom s k x).pw.edge = s.pw.edge := rfl
@[simp] theorem setDom_pw_resetKind (s : State) (k : Nat) (x : Domain) : (setDom s k x).pw.resetKind = s.pw.resetKind := rfl
@[simp] theorem setDom_pw_lastReset (s : State) (k : Nat) (x : Domain) : (setDom s k x).pw.lastReset = s.pw.lastReset := rfl
@[simp] theorem setDom_pw_starter (s : State) (k : Nat) (x : Domain) : (setDom s k x).pw.starter = s.pw.starter := rfl
@[simp] theorem setDom_pw_softHold (s : State) (k : Nat) (x : Domain) : (setDom s k x).pw.softHold = s.pw.softHold := rfl
@[simp] theorem setDom_pw_startUp (s : State) (k : Nat) (x : Domain) : (setDom s k x).pw.startUp = s.pw.startUp := rfl
@[simp] theorem setDom_pw_bootHeld (s : State) (k : Nat) (x : Domain) : (setDom s k x).pw.bootHeld = s.pw.bootHeld := rfl
@[simp] theorem setDom_pw_lateReset (s : State) (k : Nat) (x : Domain) : (setDom s k x).pw.lateReset = s.pw.lateReset := rfl
@[simp] theorem setDom_pw_latePower (s : State) (k : Nat) (x : Domain) : (setDom s k x).pw.latePower = s.pw.latePower := rfl
@[simp] theorem setDom_pw_failDue (s : State) (k : Nat) (x : Domain) : (setDom s k x).pw.failDue = s.pw.failDue := rfl
@[simp] theorem setDom_pw_resetAt (s : State) (k : Nat) (x : Domain) : (setDom s k x).pw.resetAt = s.pw.resetAt := rfl
@[simp] theorem setDom_pw_softAt (s : State) (k : Nat) (x : Domain) : (setDom s k x).pw.softAt = s.pw.softAt := rfl
@[simp] theorem setDom_pw_talliesRead (s : State) (k : Nat) (x : Domain) : (setDom s k x).pw.talliesRead = s.pw.talliesRead := rfl
@[simp] theorem dom_setDom (s : State) (k : Nat) (x : Domain) : dom (setDom s k x) k = x := tget_tset_same _ _ _ _
theorem dom_setDom_other (s : State) {k i : Nat} (x : Domain) (h : i ≠ k) : dom (setDom s k x) i = dom s i := tget_tset_other _ _ _ h

/-! ### setPdef -/
@[simp] theorem setPdef_tm (s : State) (k : Nat) (x : Option PortDef) : (setPdef s k x).tm = s.tm := rfl
@[simp] theorem setPdef_tu (s : State) (k : Nat) (x : Option PortDef) : (setPdef s k x).tu = s.tu := rfl
@[simp] theorem setPdef_st0 (s : State) (k : Nat) (x : Option PortDef) : (setPdef s k x).st0 = s.st0 := rfl
@[simp] theorem setPdef_cr (s : State) (k : Nat) (x : Option PortDef) : (setPdef s k x).cr = s.cr := rfl
@[simp] theorem setPdef_sq (s : State) (k : Nat) (x : Option PortDef) : (setPdef s k x).sq = s.sq := rfl
@[simp] theorem setPdef_ic (s : State) (k : Nat) (x : Option PortDef) : (setPdef s k x).ic = s.ic := rfl
@[simp] theorem setPdef_pw (s : State) (k : Nat) (x : Option PortDef) : (setPdef s k x).pw = s.pw := rfl
@[simp] theorem setPdef_ctr (s : State) (k : Nat) (x : Option PortDef) : (setPdef s k x).ctr = s.ctr := rfl
@[simp] theorem setPdef_str (s : State) (k : Nat) (x : Option PortDef) : (setPdef s k x).str = s.str := rfl
@[simp] theorem setPdef_pc (s : State) (k : Nat) (x : Option PortDef) : (setPdef s k x).pc = s.pc := rfl
@[simp] theorem setPdef_spr (s : State) (k : Nat) (x : Option PortDef) : (setPdef s k x).spr = s.spr := rfl
@[simp] theorem setPdef_stn (s : State) (k : Nat) (x : Option PortDef) : (setPdef s k x).stn = s.stn := rfl
@[simp] theorem setPdef_bob (s : State) (k : Nat) (x : Option PortDef) : (setPdef s k x).bob = s.bob := rfl
@[simp] theorem setPdef_skn (s : State) (k : Nat) (x : Option PortDef) : (setPdef s k x).skn = s.skn := rfl
@[simp] theorem setPdef_ct (s : State) (k : Nat) (x : Option PortDef) : (setPdef s k x).ct = s.ct := rfl
@[simp] theorem setPdef_tx (s : State) (k : Nat) (x : Option PortDef) : (setPdef s k x).tx = s.tx := rfl
@[simp] theorem setPdef_rx (s : State) (k : Nat) (x : Option PortDef) : (setPdef s k x).rx = s.rx := rfl
@[simp] theorem setPdef_ck (s : State) (k : Nat) (x : Option PortDef) : (setPdef s k x).ck = s.ck := rfl
@[simp] theorem setPdef_ld (s : State) (k : Nat) (x : Option PortDef) : (setPdef s k x).ld = s.ld := rfl
@[simp] theorem setPdef_tst (s : State) (k : Nat) (x : Option PortDef) : (setPdef s k x).tst = s.tst := rfl
@[simp] theorem setPdef_stk (s : State) (k : Nat) (x : Option PortDef) : (setPdef s k x).stk = s.stk := rfl
@[simp] theorem setPdef_reg (s : State) (k : Nat) (x : Option PortDef) : (setPdef s k x).reg = s.reg := rfl
@[simp] theorem setPdef_mem (s : State) (k : Nat) (x : Option PortDef) : (setPdef s k x).mem = s.mem := rfl
@[simp] theorem setPdef_pending (s : State) (k : Nat) (x : Option PortDef) : (setPdef s k x).pending = s.pending := rfl
@[simp] theorem setPdef_port_set (s : State) (k : Nat) (x : Option PortDef) : (setPdef s k x).port.set = s.port.set := rfl
@[simp] theorem setPdef_port_enabled (s : State) (k : Nat) (x : Option PortDef) : (setPdef s k x).port.enabled = s.port.enabled := rfl
@[simp] theorem setPdef_port_downing (s : State) (k : Nat) (x : Option PortDef) : (setPdef s k x).port.downing = s.port.downing := rfl
@[simp] theorem setPdef_port_starterPort (s : State) (k : Nat) (x : Option PortDef) : (setPdef s k x).port.starterPort = s.port.starterPort := rfl
@[simp] theorem setPdef_port_line (s : State) (k : Nat) (x : Option PortDef) : (setPdef s k x).port.line = s.port.line := rfl
@[simp] theorem pdef_setPdef (s : State) (k : Nat) (x : Option PortDef) : pdef (setPdef s k x) k = x := tget_tset_same _ _ _ _
theorem pdef_setPdef_other (s : State) {k i : Nat} (x : Option PortDef) (h : i ≠ k) : pdef (setPdef s k x) i = pdef s i := tget_tset_other _ _ _ h

/-! ### setPset -/
@[simp] theorem setPset_tm (s : State) (k : Nat) (x : PortSet) : (setPset s k x).tm = s.tm := rfl
@[simp] theorem setPset_tu (s : State) (k : Nat) (x : PortSet) : (setPset s k x).tu = s.tu := rfl
@[simp] theorem setPset_st0 (s : State) (k : Nat) (x : PortSet) : (setPset s k x).st0 = s.st0 := rfl
@[simp] theorem setPset_cr (s : State) (k : Nat) (x : PortSet) : (setPset s k x).cr = s.cr := rfl
@[simp] theorem setPset_sq (s : State) (k : Nat) (x : PortSet) : (setPset s k x).sq = s.sq := rfl
@[simp] theorem setPset_ic (s : State) (k : Nat) (x : PortSet) : (setPset s k x).ic = s.ic := rfl
@[simp] theorem setPset_pw (s : State) (k : Nat) (x : PortSet) : (setPset s k x).pw = s.pw := rfl
@[simp] theorem setPset_ctr (s : State) (k : Nat) (x : PortSet) : (setPset s k x).ctr = s.ctr := rfl
@[simp] theorem setPset_str (s : State) (k : Nat) (x : PortSet) : (setPset s k x).str = s.str := rfl
@[simp] theorem setPset_pc (s : State) (k : Nat) (x : PortSet) : (setPset s k x).pc = s.pc := rfl
@[simp] theorem setPset_spr (s : State) (k : Nat) (x : PortSet) : (setPset s k x).spr = s.spr := rfl
@[simp] theorem setPset_stn (s : State) (k : Nat) (x : PortSet) : (setPset s k x).stn = s.stn := rfl
@[simp] theorem setPset_bob (s : State) (k : Nat) (x : PortSet) : (setPset s k x).bob = s.bob := rfl
@[simp] theorem setPset_skn (s : State) (k : Nat) (x : PortSet) : (setPset s k x).skn = s.skn := rfl
@[simp] theorem setPset_ct (s : State) (k : Nat) (x : PortSet) : (setPset s k x).ct = s.ct := rfl
@[simp] theorem setPset_tx (s : State) (k : Nat) (x : PortSet) : (setPset s k x).tx = s.tx := rfl
@[simp] theorem setPset_rx (s : State) (k : Nat) (x : PortSet) : (setPset s k x).rx = s.rx := rfl
@[simp] theorem setPset_ck (s : State) (k : Nat) (x : PortSet) : (setPset s k x).ck = s.ck := rfl
@[simp] theorem setPset_ld (s : State) (k : Nat) (x : PortSet) : (setPset s k x).ld = s.ld := rfl
@[simp] theorem setPset_tst (s : State) (k : Nat) (x : PortSet) : (setPset s k x).tst = s.tst := rfl
@[simp] theorem setPset_stk (s : State) (k : Nat) (x : PortSet) : (setPset s k x).stk = s.stk := rfl
@[simp] theorem setPset_reg (s : State) (k : Nat) (x : PortSet) : (setPset s k x).reg = s.reg := rfl
@[simp] theorem setPset_mem (s : State) (k : Nat) (x : PortSet) : (setPset s k x).mem = s.mem := rfl
@[simp] theorem setPset_pending (s : State) (k : Nat) (x : PortSet) : (setPset s k x).pending = s.pending := rfl
@[simp] theorem setPset_port_defs (s : State) (k : Nat) (x : PortSet) : (setPset s k x).port.defs = s.port.defs := rfl
@[simp] theorem setPset_port_enabled (s : State) (k : Nat) (x : PortSet) : (setPset s k x).port.enabled = s.port.enabled := rfl
@[simp] theorem setPset_port_downing (s : State) (k : Nat) (x : PortSet) : (setPset s k x).port.downing = s.port.downing := rfl
@[simp] theorem setPset_port_starterPort (s : State) (k : Nat) (x : PortSet) : (setPset s k x).port.starterPort = s.port.starterPort := rfl
@[simp] theorem setPset_port_line (s : State) (k : Nat) (x : PortSet) : (setPset s k x).port.line = s.port.line := rfl
@[simp] theorem pset_setPset (s : State) (k : Nat) (x : PortSet) : pset (setPset s k x) k = x := tget_tset_same _ _ _ _
theorem pset_setPset_other (s : State) {k i : Nat} (x : PortSet) (h : i ≠ k) : pset (setPset s k x) i = pset s i := tget_tset_other _ _ _ h

/-! ### setLine -/
@[simp] theorem setLine_tm (s : State) (k : Nat) (x : Line) : (setLine s k x).tm = s.tm := rfl
@[simp] theorem setLine_tu (s : State) (k : Nat) (x : Line) : (setLine s k x).tu = s.tu := rfl
@[simp] theorem setLine_st0 (s : State) (k : Nat) (x : Line) : (setLine s k x).st0 = s.st0 := rfl
@[simp] theorem setLine_cr (s : State) (k : Nat) (x : Line) : (setLine s k x).cr = s.cr := rfl
@[simp] theorem setLine_sq (s : State) (k : Nat) (x : Line) : (setLine s k x).sq = s.sq := rfl
@[simp] theorem setLine_ic (s : State) (k : Nat) (x : Line) : (setLine s k x).ic = s.ic := rfl
@[simp] theorem setLine_pw (s : State) (k : Nat) (x : Line) : (setLine s k x).pw = s.pw := rfl
@[simp] theorem setLine_ctr (s : State) (k : Nat) (x : Line) : (setLine s k x).ctr = s.ctr := rfl
@[simp] theorem setLine_str (s : State) (k : Nat) (x : Line) : (setLine s k x).str = s.str := rfl
@[simp] theorem setLine_pc (s : State) (k : Nat) (x : Line) : (setLine s k x).pc = s.pc := rfl
@[simp] theorem setLine_spr (s : State) (k : Nat) (x : Line) : (setLine s k x).spr = s.spr := rfl
@[simp] theorem setLine_stn (s : State) (k : Nat) (x : Line) : (setLine s k x).stn = s.stn := rfl
@[simp] theorem setLine_bob (s : State) (k : Nat) (x : Line) : (setLine s k x).bob = s.bob := rfl
@[simp] theorem setLine_skn (s : State) (k : Nat) (x : Line) : (setLine s k x).skn = s.skn := rfl
@[simp] theorem setLine_ct (s : State) (k : Nat) (x : Line) : (setLine s k x).ct = s.ct := rfl
@[simp] theorem setLine_tx (s : State) (k : Nat) (x : Line) : (setLine s k x).tx = s.tx := rfl
@[simp] theorem setLine_rx (s : State) (k : Nat) (x : Line) : (setLine s k x).rx = s.rx := rfl
@[simp] theorem setLine_ck (s : State) (k : Nat) (x : Line) : (setLine s k x).ck = s.ck := rfl
@[simp] theorem setLine_ld (s : State) (k : Nat) (x : Line) : (setLine s k x).ld = s.ld := rfl
@[simp] theorem setLine_tst (s : State) (k : Nat) (x : Line) : (setLine s k x).tst = s.tst := rfl
@[simp] theorem setLine_stk (s : State) (k : Nat) (x : Line) : (setLine s k x).stk = s.stk := rfl
@[simp] theorem setLine_reg (s : State) (k : Nat) (x : Line) : (setLine s k x).reg = s.reg := rfl
@[simp] theorem setLine_mem (s : State) (k : Nat) (x : Line) : (setLine s k x).mem = s.mem := rfl
@[simp] theorem setLine_pending (s : State) (k : Nat) (x : Line) : (setLine s k x).pending = s.pending := rfl
@[simp] theorem setLine_port_defs (s : State) (k : Nat) (x : Line) : (setLine s k x).port.defs = s.port.defs := rfl
@[simp] theorem setLine_port_set (s : State) (k : Nat) (x : Line) : (setLine s k x).port.set = s.port.set := rfl
@[simp] theorem setLine_port_enabled (s : State) (k : Nat) (x : Line) : (setLine s k x).port.enabled = s.port.enabled := rfl
@[simp] theorem setLine_port_downing (s : State) (k : Nat) (x : Line) : (setLine s k x).port.downing = s.port.downing := rfl
@[simp] theorem setLine_port_starterPort (s : State) (k : Nat) (x : Line) : (setLine s k x).port.starterPort = s.port.starterPort := rfl
@[simp] theorem line_setLine (s : State) (k : Nat) (x : Line) : line (setLine s k x) k = x := tget_tset_same _ _ _ _
theorem line_setLine_other (s : State) {k i : Nat} (x : Line) (h : i ≠ k) : line (setLine s k x) i = line s i := tget_tset_other _ _ _ h

/-! ### setStrm -/
@[simp] theorem setStrm_tm (s : State) (k : Nat) (x : StreamEntry) : (setStrm s k x).tm = s.tm := rfl
@[simp] theorem setStrm_tu (s : State) (k : Nat) (x : StreamEntry) : (setStrm s k x).tu = s.tu := rfl
@[simp] theorem setStrm_st0 (s : State) (k : Nat) (x : StreamEntry) : (setStrm s k x).st0 = s.st0 := rfl
@[simp] theorem setStrm_cr (s : State) (k : Nat) (x : StreamEntry) : (setStrm s k x).cr = s.cr := rfl
@[simp] theorem setStrm_sq (s : State) (k : Nat) (x : StreamEntry) : (setStrm s k x).sq = s.sq := rfl
@[simp] theorem setStrm_ic (s : State) (k : Nat) (x : StreamEntry) : (setStrm s k x).ic = s.ic := rfl
@[simp] theorem setStrm_pw (s : State) (k : Nat) (x : StreamEntry) : (setStrm s k x).pw = s.pw := rfl
@[simp] theorem setStrm_port (s : State) (k : Nat) (x : StreamEntry) : (setStrm s k x).port = s.port := rfl
@[simp] theorem setStrm_ctr (s : State) (k : Nat) (x : StreamEntry) : (setStrm s k x).ctr = s.ctr := rfl
@[simp] theorem setStrm_pc (s : State) (k : Nat) (x : StreamEntry) : (setStrm s k x).pc = s.pc := rfl
@[simp] theorem setStrm_spr (s : State) (k : Nat) (x : StreamEntry) : (setStrm s k x).spr = s.spr := rfl
@[simp] theorem setStrm_stn (s : State) (k : Nat) (x : StreamEntry) : (setStrm s k x).stn = s.stn := rfl
@[simp] theorem setStrm_bob (s : State) (k : Nat) (x : StreamEntry) : (setStrm s k x).bob = s.bob := rfl
@[simp] theorem setStrm_skn (s : State) (k : Nat) (x : StreamEntry) : (setStrm s k x).skn = s.skn := rfl
@[simp] theorem setStrm_ct (s : State) (k : Nat) (x : StreamEntry) : (setStrm s k x).ct = s.ct := rfl
@[simp] theorem setStrm_tx (s : State) (k : Nat) (x : StreamEntry) : (setStrm s k x).tx = s.tx := rfl
@[simp] theorem setStrm_rx (s : State) (k : Nat) (x : StreamEntry) : (setStrm s k x).rx = s.rx := rfl
@[simp] theorem setStrm_ck (s : State) (k : Nat) (x : StreamEntry) : (setStrm s k x).ck = s.ck := rfl
@[simp] theorem setStrm_ld (s : State) (k : Nat) (x : StreamEntry) : (setStrm s k x).ld = s.ld := rfl
@[simp] theorem setStrm_tst (s : State) (k : Nat) (x : StreamEntry) : (setStrm s k x).tst = s.tst := rfl
@[simp] theorem setStrm_stk (s : State) (k : Nat) (x : StreamEntry) : (setStrm s k x).stk = s.stk := rfl
@[simp] theorem setStrm_reg (s : State) (k : Nat) (x : StreamEntry) : (setStrm s k x).reg = s.reg := rfl
@[simp] theorem setStrm_mem (s : State) (k : Nat) (x : StreamEntry) : (setStrm s k x).mem = s.mem := rfl
@[simp] theorem setStrm_pending (s : State) (k : Nat) (x : StreamEntry) : (setStrm s k x).pending = s.pending := rfl
@[simp] theorem setStrm_str_slot (s : State) (k : Nat) (x : StreamEntry) : (setStrm s k x).str.slot = s.str.slot := rfl
@[simp] theorem setStrm_str_visit (s : State) (k : Nat) (x : StreamEntry) : (setStrm s k x).str.visit = s.str.visit := rfl
@[simp] theorem strm_setStrm (s : State) (k : Nat) (x : StreamEntry) : strm (setStrm s k x) k = x := tget_tset_same _ _ _ _
theorem strm_setStrm_other (s : State) {k i : Nat} (x : StreamEntry) (h : i ≠ k) : strm (setStrm s k x) i = strm s i := tget_tset_other _ _ _ h

/-! ### setBob -/
@[simp] theorem setBob_tm (s : State) (k : Nat) (x : Bobbin) : (setBob s k x).tm = s.tm := rfl
@[simp] theorem setBob_tu (s : State) (k : Nat) (x : Bobbin) : (setBob s k x).tu = s.tu := rfl
@[simp] theorem setBob_st0 (s : State) (k : Nat) (x : Bobbin) : (setBob s k x).st0 = s.st0 := rfl
@[simp] theorem setBob_cr (s : State) (k : Nat) (x : Bobbin) : (setBob s k x).cr = s.cr := rfl
@[simp] theorem setBob_sq (s : State) (k : Nat) (x : Bobbin) : (setBob s k x).sq = s.sq := rfl
@[simp] theorem setBob_ic (s : State) (k : Nat) (x : Bobbin) : (setBob s k x).ic = s.ic := rfl
@[simp] theorem setBob_pw (s : State) (k : Nat) (x : Bobbin) : (setBob s k x).pw = s.pw := rfl
@[simp] theorem setBob_port (s : State) (k : Nat) (x : Bobbin) : (setBob s k x).port = s.port := rfl
@[simp] theorem setBob_ctr (s : State) (k : Nat) (x : Bobbin) : (setBob s k x).ctr = s.ctr := rfl
@[simp] theorem setBob_str (s : State) (k : Nat) (x : Bobbin) : (setBob s k x).str = s.str := rfl
@[simp] theorem setBob_pc (s : State) (k : Nat) (x : Bobbin) : (setBob s k x).pc = s.pc := rfl
@[simp] theorem setBob_spr (s : State) (k : Nat) (x : Bobbin) : (setBob s k x).spr = s.spr := rfl
@[simp] theorem setBob_stn (s : State) (k : Nat) (x : Bobbin) : (setBob s k x).stn = s.stn := rfl
@[simp] theorem setBob_skn (s : State) (k : Nat) (x : Bobbin) : (setBob s k x).skn = s.skn := rfl
@[simp] theorem setBob_ct (s : State) (k : Nat) (x : Bobbin) : (setBob s k x).ct = s.ct := rfl
@[simp] theorem setBob_tx (s : State) (k : Nat) (x : Bobbin) : (setBob s k x).tx = s.tx := rfl
@[simp] theorem setBob_rx (s : State) (k : Nat) (x : Bobbin) : (setBob s k x).rx = s.rx := rfl
@[simp] theorem setBob_ck (s : State) (k : Nat) (x : Bobbin) : (setBob s k x).ck = s.ck := rfl
@[simp] theorem setBob_ld (s : State) (k : Nat) (x : Bobbin) : (setBob s k x).ld = s.ld := rfl
@[simp] theorem setBob_tst (s : State) (k : Nat) (x : Bobbin) : (setBob s k x).tst = s.tst := rfl
@[simp] theorem setBob_stk (s : State) (k : Nat) (x : Bobbin) : (setBob s k x).stk = s.stk := rfl
@[simp] theorem setBob_reg (s : State) (k : Nat) (x : Bobbin) : (setBob s k x).reg = s.reg := rfl
@[simp] theorem setBob_mem (s : State) (k : Nat) (x : Bobbin) : (setBob s k x).mem = s.mem := rfl
@[simp] theorem setBob_pending (s : State) (k : Nat) (x : Bobbin) : (setBob s k x).pending = s.pending := rfl
@[simp] theorem setBob_bob_notify (s : State) (k : Nat) (x : Bobbin) : (setBob s k x).bob.notify = s.bob.notify := rfl
@[simp] theorem setBob_bob_summary (s : State) (k : Nat) (x : Bobbin) : (setBob s k x).bob.summary = s.bob.summary := rfl
@[simp] theorem setBob_bob_window (s : State) (k : Nat) (x : Bobbin) : (setBob s k x).bob.window = s.bob.window := rfl
@[simp] theorem setBob_bob_save (s : State) (k : Nat) (x : Bobbin) : (setBob s k x).bob.save = s.bob.save := rfl
@[simp] theorem setBob_bob_issued (s : State) (k : Nat) (x : Bobbin) : (setBob s k x).bob.issued = s.bob.issued := rfl
@[simp] theorem setBob_bob_ready (s : State) (k : Nat) (x : Bobbin) : (setBob s k x).bob.ready = s.bob.ready := rfl
@[simp] theorem bobn_setBob (s : State) (k : Nat) (x : Bobbin) : bobn (setBob s k x) k = x := tget_tset_same _ _ _ _
theorem bobn_setBob_other (s : State) {k i : Nat} (x : Bobbin) (h : i ≠ k) : bobn (setBob s k x) i = bobn s i := tget_tset_other _ _ _ h

/-! ### setSkein -/
@[simp] theorem setSkein_tm (s : State) (k : Nat) (x : Skein) : (setSkein s k x).tm = s.tm := rfl
@[simp] theorem setSkein_tu (s : State) (k : Nat) (x : Skein) : (setSkein s k x).tu = s.tu := rfl
@[simp] theorem setSkein_st0 (s : State) (k : Nat) (x : Skein) : (setSkein s k x).st0 = s.st0 := rfl
@[simp] theorem setSkein_cr (s : State) (k : Nat) (x : Skein) : (setSkein s k x).cr = s.cr := rfl
@[simp] theorem setSkein_sq (s : State) (k : Nat) (x : Skein) : (setSkein s k x).sq = s.sq := rfl
@[simp] theorem setSkein_ic (s : State) (k : Nat) (x : Skein) : (setSkein s k x).ic = s.ic := rfl
@[simp] theorem setSkein_pw (s : State) (k : Nat) (x : Skein) : (setSkein s k x).pw = s.pw := rfl
@[simp] theorem setSkein_port (s : State) (k : Nat) (x : Skein) : (setSkein s k x).port = s.port := rfl
@[simp] theorem setSkein_ctr (s : State) (k : Nat) (x : Skein) : (setSkein s k x).ctr = s.ctr := rfl
@[simp] theorem setSkein_str (s : State) (k : Nat) (x : Skein) : (setSkein s k x).str = s.str := rfl
@[simp] theorem setSkein_pc (s : State) (k : Nat) (x : Skein) : (setSkein s k x).pc = s.pc := rfl
@[simp] theorem setSkein_spr (s : State) (k : Nat) (x : Skein) : (setSkein s k x).spr = s.spr := rfl
@[simp] theorem setSkein_stn (s : State) (k : Nat) (x : Skein) : (setSkein s k x).stn = s.stn := rfl
@[simp] theorem setSkein_bob (s : State) (k : Nat) (x : Skein) : (setSkein s k x).bob = s.bob := rfl
@[simp] theorem setSkein_ct (s : State) (k : Nat) (x : Skein) : (setSkein s k x).ct = s.ct := rfl
@[simp] theorem setSkein_tx (s : State) (k : Nat) (x : Skein) : (setSkein s k x).tx = s.tx := rfl
@[simp] theorem setSkein_rx (s : State) (k : Nat) (x : Skein) : (setSkein s k x).rx = s.rx := rfl
@[simp] theorem setSkein_ck (s : State) (k : Nat) (x : Skein) : (setSkein s k x).ck = s.ck := rfl
@[simp] theorem setSkein_ld (s : State) (k : Nat) (x : Skein) : (setSkein s k x).ld = s.ld := rfl
@[simp] theorem setSkein_tst (s : State) (k : Nat) (x : Skein) : (setSkein s k x).tst = s.tst := rfl
@[simp] theorem setSkein_stk (s : State) (k : Nat) (x : Skein) : (setSkein s k x).stk = s.stk := rfl
@[simp] theorem setSkein_reg (s : State) (k : Nat) (x : Skein) : (setSkein s k x).reg = s.reg := rfl
@[simp] theorem setSkein_mem (s : State) (k : Nat) (x : Skein) : (setSkein s k x).mem = s.mem := rfl
@[simp] theorem setSkein_pending (s : State) (k : Nat) (x : Skein) : (setSkein s k x).pending = s.pending := rfl
@[simp] theorem setSkein_skn_ring (s : State) (k : Nat) (x : Skein) : (setSkein s k x).skn.ring = s.skn.ring := rfl
@[simp] theorem setSkein_skn_lastExpress (s : State) (k : Nat) (x : Skein) : (setSkein s k x).skn.lastExpress = s.skn.lastExpress := rfl
@[simp] theorem skein_setSkein (s : State) (k : Nat) (x : Skein) : skein (setSkein s k x) k = x := tget_tset_same _ _ _ _
theorem skein_setSkein_other (s : State) {k i : Nat} (x : Skein) (h : i ≠ k) : skein (setSkein s k x) i = skein s i := tget_tset_other _ _ _ h

/-! ### setCt -/
@[simp] theorem setCt_tm (s : State) (k : Nat) (x : Contract) : (setCt s k x).tm = s.tm := rfl
@[simp] theorem setCt_tu (s : State) (k : Nat) (x : Contract) : (setCt s k x).tu = s.tu := rfl
@[simp] theorem setCt_st0 (s : State) (k : Nat) (x : Contract) : (setCt s k x).st0 = s.st0 := rfl
@[simp] theorem setCt_cr (s : State) (k : Nat) (x : Contract) : (setCt s k x).cr = s.cr := rfl
@[simp] theorem setCt_sq (s : State) (k : Nat) (x : Contract) : (setCt s k x).sq = s.sq := rfl
@[simp] theorem setCt_ic (s : State) (k : Nat) (x : Contract) : (setCt s k x).ic = s.ic := rfl
@[simp] theorem setCt_pw (s : State) (k : Nat) (x : Contract) : (setCt s k x).pw = s.pw := rfl
@[simp] theorem setCt_port (s : State) (k : Nat) (x : Contract) : (setCt s k x).port = s.port := rfl
@[simp] theorem setCt_ctr (s : State) (k : Nat) (x : Contract) : (setCt s k x).ctr = s.ctr := rfl
@[simp] theorem setCt_str (s : State) (k : Nat) (x : Contract) : (setCt s k x).str = s.str := rfl
@[simp] theorem setCt_pc (s : State) (k : Nat) (x : Contract) : (setCt s k x).pc = s.pc := rfl
@[simp] theorem setCt_spr (s : State) (k : Nat) (x : Contract) : (setCt s k x).spr = s.spr := rfl
@[simp] theorem setCt_stn (s : State) (k : Nat) (x : Contract) : (setCt s k x).stn = s.stn := rfl
@[simp] theorem setCt_bob (s : State) (k : Nat) (x : Contract) : (setCt s k x).bob = s.bob := rfl
@[simp] theorem setCt_skn (s : State) (k : Nat) (x : Contract) : (setCt s k x).skn = s.skn := rfl
@[simp] theorem setCt_tx (s : State) (k : Nat) (x : Contract) : (setCt s k x).tx = s.tx := rfl
@[simp] theorem setCt_rx (s : State) (k : Nat) (x : Contract) : (setCt s k x).rx = s.rx := rfl
@[simp] theorem setCt_ck (s : State) (k : Nat) (x : Contract) : (setCt s k x).ck = s.ck := rfl
@[simp] theorem setCt_ld (s : State) (k : Nat) (x : Contract) : (setCt s k x).ld = s.ld := rfl
@[simp] theorem setCt_tst (s : State) (k : Nat) (x : Contract) : (setCt s k x).tst = s.tst := rfl
@[simp] theorem setCt_stk (s : State) (k : Nat) (x : Contract) : (setCt s k x).stk = s.stk := rfl
@[simp] theorem setCt_reg (s : State) (k : Nat) (x : Contract) : (setCt s k x).reg = s.reg := rfl
@[simp] theorem setCt_mem (s : State) (k : Nat) (x : Contract) : (setCt s k x).mem = s.mem := rfl
@[simp] theorem setCt_pending (s : State) (k : Nat) (x : Contract) : (setCt s k x).pending = s.pending := rfl
@[simp] theorem setCt_ct_fabRate (s : State) (k : Nat) (x : Contract) : (setCt s k x).ct.fabRate = s.ct.fabRate := rfl
@[simp] theorem contr_setCt (s : State) (k : Nat) (x : Contract) : contr (setCt s k x) k = x := tget_tset_same _ _ _ _
theorem contr_setCt_other (s : State) {k i : Nat} (x : Contract) (h : i ≠ k) : contr (setCt s k x) i = contr s i := tget_tset_other _ _ _ h

/-! ### setChan -/
@[simp] theorem setChan_tm (s : State) (k : Nat) (x : Channel) : (setChan s k x).tm = s.tm := rfl
@[simp] theorem setChan_tu (s : State) (k : Nat) (x : Channel) : (setChan s k x).tu = s.tu := rfl
@[simp] theorem setChan_st0 (s : State) (k : Nat) (x : Channel) : (setChan s k x).st0 = s.st0 := rfl
@[simp] theorem setChan_cr (s : State) (k : Nat) (x : Channel) : (setChan s k x).cr = s.cr := rfl
@[simp] theorem setChan_sq (s : State) (k : Nat) (x : Channel) : (setChan s k x).sq = s.sq := rfl
@[simp] theorem setChan_ic (s : State) (k : Nat) (x : Channel) : (setChan s k x).ic = s.ic := rfl
@[simp] theorem setChan_pw (s : State) (k : Nat) (x : Channel) : (setChan s k x).pw = s.pw := rfl
@[simp] theorem setChan_port (s : State) (k : Nat) (x : Channel) : (setChan s k x).port = s.port := rfl
@[simp] theorem setChan_ctr (s : State) (k : Nat) (x : Channel) : (setChan s k x).ctr = s.ctr := rfl
@[simp] theorem setChan_str (s : State) (k : Nat) (x : Channel) : (setChan s k x).str = s.str := rfl
@[simp] theorem setChan_pc (s : State) (k : Nat) (x : Channel) : (setChan s k x).pc = s.pc := rfl
@[simp] theorem setChan_spr (s : State) (k : Nat) (x : Channel) : (setChan s k x).spr = s.spr := rfl
@[simp] theorem setChan_stn (s : State) (k : Nat) (x : Channel) : (setChan s k x).stn = s.stn := rfl
@[simp] theorem setChan_bob (s : State) (k : Nat) (x : Channel) : (setChan s k x).bob = s.bob := rfl
@[simp] theorem setChan_skn (s : State) (k : Nat) (x : Channel) : (setChan s k x).skn = s.skn := rfl
@[simp] theorem setChan_ct (s : State) (k : Nat) (x : Channel) : (setChan s k x).ct = s.ct := rfl
@[simp] theorem setChan_tx (s : State) (k : Nat) (x : Channel) : (setChan s k x).tx = s.tx := rfl
@[simp] theorem setChan_rx (s : State) (k : Nat) (x : Channel) : (setChan s k x).rx = s.rx := rfl
@[simp] theorem setChan_ld (s : State) (k : Nat) (x : Channel) : (setChan s k x).ld = s.ld := rfl
@[simp] theorem setChan_tst (s : State) (k : Nat) (x : Channel) : (setChan s k x).tst = s.tst := rfl
@[simp] theorem setChan_stk (s : State) (k : Nat) (x : Channel) : (setChan s k x).stk = s.stk := rfl
@[simp] theorem setChan_reg (s : State) (k : Nat) (x : Channel) : (setChan s k x).reg = s.reg := rfl
@[simp] theorem setChan_mem (s : State) (k : Nat) (x : Channel) : (setChan s k x).mem = s.mem := rfl
@[simp] theorem setChan_pending (s : State) (k : Nat) (x : Channel) : (setChan s k x).pending = s.pending := rfl
@[simp] theorem setChan_ck_extra (s : State) (k : Nat) (x : Channel) : (setChan s k x).ck.extra = s.ck.extra := rfl
@[simp] theorem setChan_ck_done (s : State) (k : Nat) (x : Channel) : (setChan s k x).ck.done = s.ck.done := rfl
@[simp] theorem setChan_ck_mismatch (s : State) (k : Nat) (x : Channel) : (setChan s k x).ck.mismatch = s.ck.mismatch := rfl
@[simp] theorem chan_setChan (s : State) (k : Nat) (x : Channel) : chan (setChan s k x) k = x := tget_tset_same _ _ _ _
theorem chan_setChan_other (s : State) {k i : Nat} (x : Channel) (h : i ≠ k) : chan (setChan s k x) i = chan s i := tget_tset_other _ _ _ h

/-! ### setStn -/
@[simp] theorem setStn_tm (s : State) (k : Nat) (x : StnEntry) : (setStn s k x).tm = s.tm := rfl
@[simp] theorem setStn_tu (s : State) (k : Nat) (x : StnEntry) : (setStn s k x).tu = s.tu := rfl
@[simp] theorem setStn_st0 (s : State) (k : Nat) (x : StnEntry) : (setStn s k x).st0 = s.st0 := rfl
@[simp] theorem setStn_cr (s : State) (k : Nat) (x : StnEntry) : (setStn s k x).cr = s.cr := rfl
@[simp] theorem setStn_sq (s : State) (k : Nat) (x : StnEntry) : (setStn s k x).sq = s.sq := rfl
@[simp] theorem setStn_ic (s : State) (k : Nat) (x : StnEntry) : (setStn s k x).ic = s.ic := rfl
@[simp] theorem setStn_pw (s : State) (k : Nat) (x : StnEntry) : (setStn s k x).pw = s.pw := rfl
@[simp] theorem setStn_port (s : State) (k : Nat) (x : StnEntry) : (setStn s k x).port = s.port := rfl
@[simp] theorem setStn_ctr (s : State) (k : Nat) (x : StnEntry) : (setStn s k x).ctr = s.ctr := rfl
@[simp] theorem setStn_str (s : State) (k : Nat) (x : StnEntry) : (setStn s k x).str = s.str := rfl
@[simp] theorem setStn_pc (s : State) (k : Nat) (x : StnEntry) : (setStn s k x).pc = s.pc := rfl
@[simp] theorem setStn_spr (s : State) (k : Nat) (x : StnEntry) : (setStn s k x).spr = s.spr := rfl
@[simp] theorem setStn_bob (s : State) (k : Nat) (x : StnEntry) : (setStn s k x).bob = s.bob := rfl
@[simp] theorem setStn_skn (s : State) (k : Nat) (x : StnEntry) : (setStn s k x).skn = s.skn := rfl
@[simp] theorem setStn_ct (s : State) (k : Nat) (x : StnEntry) : (setStn s k x).ct = s.ct := rfl
@[simp] theorem setStn_tx (s : State) (k : Nat) (x : StnEntry) : (setStn s k x).tx = s.tx := rfl
@[simp] theorem setStn_rx (s : State) (k : Nat) (x : StnEntry) : (setStn s k x).rx = s.rx := rfl
@[simp] theorem setStn_ck (s : State) (k : Nat) (x : StnEntry) : (setStn s k x).ck = s.ck := rfl
@[simp] theorem setStn_ld (s : State) (k : Nat) (x : StnEntry) : (setStn s k x).ld = s.ld := rfl
@[simp] theorem setStn_tst (s : State) (k : Nat) (x : StnEntry) : (setStn s k x).tst = s.tst := rfl
@[simp] theorem setStn_stk (s : State) (k : Nat) (x : StnEntry) : (setStn s k x).stk = s.stk := rfl
@[simp] theorem setStn_reg (s : State) (k : Nat) (x : StnEntry) : (setStn s k x).reg = s.reg := rfl
@[simp] theorem setStn_mem (s : State) (k : Nat) (x : StnEntry) : (setStn s k x).mem = s.mem := rfl
@[simp] theorem setStn_pending (s : State) (k : Nat) (x : StnEntry) : (setStn s k x).pending = s.pending := rfl
@[simp] theorem setStn_stn_s1 (s : State) (k : Nat) (x : StnEntry) : (setStn s k x).stn.s1 = s.stn.s1 := rfl
@[simp] theorem setStn_stn_s2 (s : State) (k : Nat) (x : StnEntry) : (setStn s k x).stn.s2 = s.stn.s2 := rfl
@[simp] theorem setStn_stn_s1n (s : State) (k : Nat) (x : StnEntry) : (setStn s k x).stn.s1n = s.stn.s1n := rfl
@[simp] theorem setStn_stn_s2n (s : State) (k : Nat) (x : StnEntry) : (setStn s k x).stn.s2n = s.stn.s2n := rfl
@[simp] theorem setStn_stn_tg (s : State) (k : Nat) (x : StnEntry) : (setStn s k x).stn.tg = s.stn.tg := rfl
@[simp] theorem setStn_stn_phase (s : State) (k : Nat) (x : StnEntry) : (setStn s k x).stn.phase = s.stn.phase := rfl
@[simp] theorem setStn_stn_ptr (s : State) (k : Nat) (x : StnEntry) : (setStn s k x).stn.ptr = s.stn.ptr := rfl
@[simp] theorem setStn_stn_kept (s : State) (k : Nat) (x : StnEntry) : (setStn s k x).stn.kept = s.stn.kept := rfl
@[simp] theorem setStn_stn_rotor (s : State) (k : Nat) (x : StnEntry) : (setStn s k x).stn.rotor = s.stn.rotor := rfl
@[simp] theorem setStn_stn_fifo (s : State) (k : Nat) (x : StnEntry) : (setStn s k x).stn.fifo = s.stn.fifo := rfl
@[simp] theorem setStn_stn_tick (s : State) (k : Nat) (x : StnEntry) : (setStn s k x).stn.tick = s.stn.tick := rfl
@[simp] theorem setStn_stn_tickAt (s : State) (k : Nat) (x : StnEntry) : (setStn s k x).stn.tickAt = s.stn.tickAt := rfl
@[simp] theorem setStn_stn_holdPos (s : State) (k : Nat) (x : StnEntry) : (setStn s k x).stn.holdPos = s.stn.holdPos := rfl
@[simp] theorem setStn_stn_holdBase (s : State) (k : Nat) (x : StnEntry) : (setStn s k x).stn.holdBase = s.stn.holdBase := rfl
@[simp] theorem setStn_stn_h (s : State) (k : Nat) (x : StnEntry) : (setStn s k x).stn.h = s.stn.h := rfl
@[simp] theorem setStn_stn_exportEn (s : State) (k : Nat) (x : StnEntry) : (setStn s k x).stn.exportEn = s.stn.exportEn := rfl
@[simp] theorem setStn_stn_exportBob (s : State) (k : Nat) (x : StnEntry) : (setStn s k x).stn.exportBob = s.stn.exportBob := rfl
@[simp] theorem setStn_stn_period (s : State) (k : Nat) (x : StnEntry) : (setStn s k x).stn.period = s.stn.period := rfl
@[simp] theorem setStn_stn_ageInit (s : State) (k : Nat) (x : StnEntry) : (setStn s k x).stn.ageInit = s.stn.ageInit := rfl
@[simp] theorem setStn_stn_agePos (s : State) (k : Nat) (x : StnEntry) : (setStn s k x).stn.agePos = s.stn.agePos := rfl
@[simp] theorem setStn_stn_ageDue (s : State) (k : Nat) (x : StnEntry) : (setStn s k x).stn.ageDue = s.stn.ageDue := rfl
@[simp] theorem setStn_stn_seq (s : State) (k : Nat) (x : StnEntry) : (setStn s k x).stn.seq = s.stn.seq := rfl
@[simp] theorem stn_setStn (s : State) (k : Nat) (x : StnEntry) : stn (setStn s k x) k = x := tget_tset_same _ _ _ _
theorem stn_setStn_other (s : State) {k i : Nat} (x : StnEntry) (h : i ≠ k) : stn (setStn s k x) i = stn s i := tget_tset_other _ _ _ h

/-! ### setTest -/
@[simp] theorem setTest_tm (s : State) (k : Nat) (x : TestRun) : (setTest s k x).tm = s.tm := rfl
@[simp] theorem setTest_tu (s : State) (k : Nat) (x : TestRun) : (setTest s k x).tu = s.tu := rfl
@[simp] theorem setTest_st0 (s : State) (k : Nat) (x : TestRun) : (setTest s k x).st0 = s.st0 := rfl
@[simp] theorem setTest_cr (s : State) (k : Nat) (x : TestRun) : (setTest s k x).cr = s.cr := rfl
@[simp] theorem setTest_sq (s : State) (k : Nat) (x : TestRun) : (setTest s k x).sq = s.sq := rfl
@[simp] theorem setTest_ic (s : State) (k : Nat) (x : TestRun) : (setTest s k x).ic = s.ic := rfl
@[simp] theorem setTest_pw (s : State) (k : Nat) (x : TestRun) : (setTest s k x).pw = s.pw := rfl
@[simp] theorem setTest_port (s : State) (k : Nat) (x : TestRun) : (setTest s k x).port = s.port := rfl
@[simp] theorem setTest_ctr (s : State) (k : Nat) (x : TestRun) : (setTest s k x).ctr = s.ctr := rfl
@[simp] theorem setTest_str (s : State) (k : Nat) (x : TestRun) : (setTest s k x).str = s.str := rfl
@[simp] theorem setTest_pc (s : State) (k : Nat) (x : TestRun) : (setTest s k x).pc = s.pc := rfl
@[simp] theorem setTest_spr (s : State) (k : Nat) (x : TestRun) : (setTest s k x).spr = s.spr := rfl
@[simp] theorem setTest_stn (s : State) (k : Nat) (x : TestRun) : (setTest s k x).stn = s.stn := rfl
@[simp] theorem setTest_bob (s : State) (k : Nat) (x : TestRun) : (setTest s k x).bob = s.bob := rfl
@[simp] theorem setTest_skn (s : State) (k : Nat) (x : TestRun) : (setTest s k x).skn = s.skn := rfl
@[simp] theorem setTest_ct (s : State) (k : Nat) (x : TestRun) : (setTest s k x).ct = s.ct := rfl
@[simp] theorem setTest_tx (s : State) (k : Nat) (x : TestRun) : (setTest s k x).tx = s.tx := rfl
@[simp] theorem setTest_rx (s : State) (k : Nat) (x : TestRun) : (setTest s k x).rx = s.rx := rfl
@[simp] theorem setTest_ck (s : State) (k : Nat) (x : TestRun) : (setTest s k x).ck = s.ck := rfl
@[simp] theorem setTest_ld (s : State) (k : Nat) (x : TestRun) : (setTest s k x).ld = s.ld := rfl
@[simp] theorem setTest_stk (s : State) (k : Nat) (x : TestRun) : (setTest s k x).stk = s.stk := rfl
@[simp] theorem setTest_reg (s : State) (k : Nat) (x : TestRun) : (setTest s k x).reg = s.reg := rfl
@[simp] theorem setTest_mem (s : State) (k : Nat) (x : TestRun) : (setTest s k x).mem = s.mem := rfl
@[simp] theorem setTest_pending (s : State) (k : Nat) (x : TestRun) : (setTest s k x).pending = s.pending := rfl
@[simp] theorem setTest_tst_loop (s : State) (k : Nat) (x : TestRun) : (setTest s k x).tst.loop = s.tst.loop := rfl
@[simp] theorem setTest_tst_loopDefer (s : State) (k : Nat) (x : TestRun) : (setTest s k x).tst.loopDefer = s.tst.loopDefer := rfl
@[simp] theorem setTest_tst_margin (s : State) (k : Nat) (x : TestRun) : (setTest s k x).tst.margin = s.tst.margin := rfl
@[simp] theorem testOf_setTest (s : State) (k : Nat) (x : TestRun) : testOf (setTest s k x) k = x := tget_tset_same _ _ _ _
theorem testOf_setTest_other (s : State) {k i : Nat} (x : TestRun) (h : i ≠ k) : testOf (setTest s k x) i = testOf s i := tget_tset_other _ _ _ h

/-! ### setIir -/
@[simp] theorem setIir_tm (s : State) (k : Nat) (x : IirSlot) : (setIir s k x).tm = s.tm := rfl
@[simp] theorem setIir_tu (s : State) (k : Nat) (x : IirSlot) : (setIir s k x).tu = s.tu := rfl
@[simp] theorem setIir_st0 (s : State) (k : Nat) (x : IirSlot) : (setIir s k x).st0 = s.st0 := rfl
@[simp] theorem setIir_cr (s : State) (k : Nat) (x : IirSlot) : (setIir s k x).cr = s.cr := rfl
@[simp] theorem setIir_ic (s : State) (k : Nat) (x : IirSlot) : (setIir s k x).ic = s.ic := rfl
@[simp] theorem setIir_pw (s : State) (k : Nat) (x : IirSlot) : (setIir s k x).pw = s.pw := rfl
@[simp] theorem setIir_port (s : State) (k : Nat) (x : IirSlot) : (setIir s k x).port = s.port := rfl
@[simp] theorem setIir_ctr (s : State) (k : Nat) (x : IirSlot) : (setIir s k x).ctr = s.ctr := rfl
@[simp] theorem setIir_str (s : State) (k : Nat) (x : IirSlot) : (setIir s k x).str = s.str := rfl
@[simp] theorem setIir_pc (s : State) (k : Nat) (x : IirSlot) : (setIir s k x).pc = s.pc := rfl
@[simp] theorem setIir_spr (s : State) (k : Nat) (x : IirSlot) : (setIir s k x).spr = s.spr := rfl
@[simp] theorem setIir_stn (s : State) (k : Nat) (x : IirSlot) : (setIir s k x).stn = s.stn := rfl
@[simp] theorem setIir_bob (s : State) (k : Nat) (x : IirSlot) : (setIir s k x).bob = s.bob := rfl
@[simp] theorem setIir_skn (s : State) (k : Nat) (x : IirSlot) : (setIir s k x).skn = s.skn := rfl
@[simp] theorem setIir_ct (s : State) (k : Nat) (x : IirSlot) : (setIir s k x).ct = s.ct := rfl
@[simp] theorem setIir_tx (s : State) (k : Nat) (x : IirSlot) : (setIir s k x).tx = s.tx := rfl
@[simp] theorem setIir_rx (s : State) (k : Nat) (x : IirSlot) : (setIir s k x).rx = s.rx := rfl
@[simp] theorem setIir_ck (s : State) (k : Nat) (x : IirSlot) : (setIir s k x).ck = s.ck := rfl
@[simp] theorem setIir_ld (s : State) (k : Nat) (x : IirSlot) : (setIir s k x).ld = s.ld := rfl
@[simp] theorem setIir_tst (s : State) (k : Nat) (x : IirSlot) : (setIir s k x).tst = s.tst := rfl
@[simp] theorem setIir_stk (s : State) (k : Nat) (x : IirSlot) : (setIir s k x).stk = s.stk := rfl
@[simp] theorem setIir_reg (s : State) (k : Nat) (x : IirSlot) : (setIir s k x).reg = s.reg := rfl
@[simp] theorem setIir_mem (s : State) (k : Nat) (x : IirSlot) : (setIir s k x).mem = s.mem := rfl
@[simp] theorem setIir_pending (s : State) (k : Nat) (x : IirSlot) : (setIir s k x).pending = s.pending := rfl
@[simp] theorem setIir_sq_released (s : State) (k : Nat) (x : IirSlot) : (setIir s k x).sq.released = s.sq.released := rfl
@[simp] theorem setIir_sq_heldState (s : State) (k : Nat) (x : IirSlot) : (setIir s k x).sq.heldState = s.sq.heldState := rfl
@[simp] theorem setIir_sq_journal (s : State) (k : Nat) (x : IirSlot) : (setIir s k x).sq.journal = s.sq.journal := rfl
@[simp] theorem setIir_sq_owner (s : State) (k : Nat) (x : IirSlot) : (setIir s k x).sq.owner = s.sq.owner := rfl
@[simp] theorem setIir_sq_resetBy (s : State) (k : Nat) (x : IirSlot) : (setIir s k x).sq.resetBy = s.sq.resetBy := rfl
@[simp] theorem setIir_sq_inSoftReset (s : State) (k : Nat) (x : IirSlot) : (setIir s k x).sq.inSoftReset = s.sq.inSoftReset := rfl
@[simp] theorem setIir_sq_t4Claim (s : State) (k : Nat) (x : IirSlot) : (setIir s k x).sq.t4Claim = s.sq.t4Claim := rfl
@[simp] theorem setIir_sq_lastStep (s : State) (k : Nat) (x : IirSlot) : (setIir s k x).sq.lastStep = s.sq.lastStep := rfl
@[simp] theorem setIir_sq_lastRing (s : State) (k : Nat) (x : IirSlot) : (setIir s k x).sq.lastRing = s.sq.lastRing := rfl
@[simp] theorem setIir_sq_adm (s : State) (k : Nat) (x : IirSlot) : (setIir s k x).sq.adm = s.sq.adm := rfl
@[simp] theorem setIir_sq_admRun (s : State) (k : Nat) (x : IirSlot) : (setIir s k x).sq.admRun = s.sq.admRun := rfl
@[simp] theorem iir_setIir (s : State) (k : Nat) (x : IirSlot) : iir (setIir s k x) k = x := tget_tset_same _ _ _ _
theorem iir_setIir_other (s : State) {k i : Nat} (x : IirSlot) (h : i ≠ k) : iir (setIir s k x) i = iir s i := tget_tset_other _ _ _ h

/-! ### raise -/
@[simp] theorem raise_tm (s : State) (g n : Nat) : (raise s g n).tm = s.tm := rfl
@[simp] theorem raise_tu (s : State) (g n : Nat) : (raise s g n).tu = s.tu := rfl
@[simp] theorem raise_st0 (s : State) (g n : Nat) : (raise s g n).st0 = s.st0 := rfl
@[simp] theorem raise_cr (s : State) (g n : Nat) : (raise s g n).cr = s.cr := rfl
@[simp] theorem raise_sq (s : State) (g n : Nat) : (raise s g n).sq = s.sq := rfl
@[simp] theorem raise_pw (s : State) (g n : Nat) : (raise s g n).pw = s.pw := rfl
@[simp] theorem raise_port (s : State) (g n : Nat) : (raise s g n).port = s.port := rfl
@[simp] theorem raise_ctr (s : State) (g n : Nat) : (raise s g n).ctr = s.ctr := rfl
@[simp] theorem raise_str (s : State) (g n : Nat) : (raise s g n).str = s.str := rfl
@[simp] theorem raise_pc (s : State) (g n : Nat) : (raise s g n).pc = s.pc := rfl
@[simp] theorem raise_spr (s : State) (g n : Nat) : (raise s g n).spr = s.spr := rfl
@[simp] theorem raise_stn (s : State) (g n : Nat) : (raise s g n).stn = s.stn := rfl
@[simp] theorem raise_bob (s : State) (g n : Nat) : (raise s g n).bob = s.bob := rfl
@[simp] theorem raise_skn (s : State) (g n : Nat) : (raise s g n).skn = s.skn := rfl
@[simp] theorem raise_ct (s : State) (g n : Nat) : (raise s g n).ct = s.ct := rfl
@[simp] theorem raise_tx (s : State) (g n : Nat) : (raise s g n).tx = s.tx := rfl
@[simp] theorem raise_rx (s : State) (g n : Nat) : (raise s g n).rx = s.rx := rfl
@[simp] theorem raise_ck (s : State) (g n : Nat) : (raise s g n).ck = s.ck := rfl
@[simp] theorem raise_ld (s : State) (g n : Nat) : (raise s g n).ld = s.ld := rfl
@[simp] theorem raise_tst (s : State) (g n : Nat) : (raise s g n).tst = s.tst := rfl
@[simp] theorem raise_stk (s : State) (g n : Nat) : (raise s g n).stk = s.stk := rfl
@[simp] theorem raise_reg (s : State) (g n : Nat) : (raise s g n).reg = s.reg := rfl
@[simp] theorem raise_mem (s : State) (g n : Nat) : (raise s g n).mem = s.mem := rfl
@[simp] theorem raise_pending (s : State) (g n : Nat) : (raise s g n).pending = s.pending := rfl
@[simp] theorem raise_ic_target (s : State) (g n : Nat) : (raise s g n).ic.target = s.ic.target := rfl
@[simp] theorem raise_ic_filter (s : State) (g n : Nat) : (raise s g n).ic.filter = s.ic.filter := rfl
@[simp] theorem raise_serial (s : State) (g n : Nat) : (raise s g n).ic.serial = s.ic.serial + 1 := rfl
@[simp] theorem raise_lastRaise (s : State) (g n : Nat) : tget 0 (raise s g n).ic.lastRaise (32 * g + n) = s.ic.serial + 1 := by simp [raise]
@[simp] theorem raiseIf_tm (b : Bool) (s : State) (g n : Nat) : (raiseIf b s g n).tm = s.tm := by cases b <;> rfl
@[simp] theorem raiseIf_tu (b : Bool) (s : State) (g n : Nat) : (raiseIf b s g n).tu = s.tu := by cases b <;> rfl
@[simp] theorem raiseIf_st0 (b : Bool) (s : State) (g n : Nat) : (raiseIf b s g n).st0 = s.st0 := by cases b <;> rfl
@[simp] theorem raiseIf_cr (b : Bool) (s : State) (g n : Nat) : (raiseIf b s g n).cr = s.cr := by cases b <;> rfl
@[simp] theorem raiseIf_sq (b : Bool) (s : State) (g n : Nat) : (raiseIf b s g n).sq = s.sq := by cases b <;> rfl
@[simp] theorem raiseIf_pw (b : Bool) (s : State) (g n : Nat) : (raiseIf b s g n).pw = s.pw := by cases b <;> rfl
@[simp] theorem raiseIf_port (b : Bool) (s : State) (g n : Nat) : (raiseIf b s g n).port = s.port := by cases b <;> rfl
@[simp] theorem raiseIf_ctr (b : Bool) (s : State) (g n : Nat) : (raiseIf b s g n).ctr = s.ctr := by cases b <;> rfl
@[simp] theorem raiseIf_str (b : Bool) (s : State) (g n : Nat) : (raiseIf b s g n).str = s.str := by cases b <;> rfl
@[simp] theorem raiseIf_pc (b : Bool) (s : State) (g n : Nat) : (raiseIf b s g n).pc = s.pc := by cases b <;> rfl
@[simp] theorem raiseIf_spr (b : Bool) (s : State) (g n : Nat) : (raiseIf b s g n).spr = s.spr := by cases b <;> rfl
@[simp] theorem raiseIf_stn (b : Bool) (s : State) (g n : Nat) : (raiseIf b s g n).stn = s.stn := by cases b <;> rfl
@[simp] theorem raiseIf_bob (b : Bool) (s : State) (g n : Nat) : (raiseIf b s g n).bob = s.bob := by cases b <;> rfl
@[simp] theorem raiseIf_skn (b : Bool) (s : State) (g n : Nat) : (raiseIf b s g n).skn = s.skn := by cases b <;> rfl
@[simp] theorem raiseIf_ct (b : Bool) (s : State) (g n : Nat) : (raiseIf b s g n).ct = s.ct := by cases b <;> rfl
@[simp] theorem raiseIf_tx (b : Bool) (s : State) (g n : Nat) : (raiseIf b s g n).tx = s.tx := by cases b <;> rfl
@[simp] theorem raiseIf_rx (b : Bool) (s : State) (g n : Nat) : (raiseIf b s g n).rx = s.rx := by cases b <;> rfl
@[simp] theorem raiseIf_ck (b : Bool) (s : State) (g n : Nat) : (raiseIf b s g n).ck = s.ck := by cases b <;> rfl
@[simp] theorem raiseIf_ld (b : Bool) (s : State) (g n : Nat) : (raiseIf b s g n).ld = s.ld := by cases b <;> rfl
@[simp] theorem raiseIf_tst (b : Bool) (s : State) (g n : Nat) : (raiseIf b s g n).tst = s.tst := by cases b <;> rfl
@[simp] theorem raiseIf_stk (b : Bool) (s : State) (g n : Nat) : (raiseIf b s g n).stk = s.stk := by cases b <;> rfl
@[simp] theorem raiseIf_reg (b : Bool) (s : State) (g n : Nat) : (raiseIf b s g n).reg = s.reg := by cases b <;> rfl
@[simp] theorem raiseIf_mem (b : Bool) (s : State) (g n : Nat) : (raiseIf b s g n).mem = s.mem := by cases b <;> rfl
@[simp] theorem raiseIf_pending (b : Bool) (s : State) (g n : Nat) : (raiseIf b s g n).pending = s.pending := by cases b <;> rfl

end Sys2Proof.Machine
end

