-- ==== Sys2Proof/Laws/Settle.lean ====
section
/-! SUPPORT. What `settle` leaves alone, and the domains it leaves (R370). -/
namespace Sys2Proof.Machine

/-- Every part of the state but the interrupt controller and power is the same, less the claim of T4, the block's own checks and the deferred
tests. -/
structure Kept (s t : State) : Prop where
  tm : t.tm = s.tm
  tu : t.tu = s.tu
  st0 : t.st0 = s.st0
  cr : t.cr = s.cr
  port : t.port = s.port
  ctr : t.ctr = s.ctr
  str : t.str = s.str
  pc : t.pc = s.pc
  spr : t.spr = s.spr
  stn : t.stn = s.stn
  bob : t.bob = s.bob
  skn : t.skn = s.skn
  ct : t.ct = s.ct
  tx : t.tx = s.tx
  rx : t.rx = s.rx
  ld : t.ld = s.ld
  stk : t.stk = s.stk
  reg : t.reg = s.reg
  mem : t.mem = s.mem
  pending : t.pending = s.pending
  sq : t.sq = { s.sq with t4Claim := t.sq.t4Claim }
  chan : t.ck.chan = s.ck.chan
  loop : t.tst.loop = s.tst.loop
  loopDefer : t.tst.loopDefer = s.tst.loopDefer
  margin : t.tst.margin = s.tst.margin
  tests : ∀ d, (testOf s d).st ≠ .deferred → testOf t d = testOf s d

theorem Kept.refl (s : State) : Kept s s := by
  constructor <;> first | rfl | (intro d _; rfl)
theorem Kept.trans {s t u : State} (h : Kept s t) (k : Kept t u) : Kept s u := by
  constructor
  · exact k.tm.trans h.tm
  · exact k.tu.trans h.tu
  · exact k.st0.trans h.st0
  · exact k.cr.trans h.cr
  · exact k.port.trans h.port
  · exact k.ctr.trans h.ctr
  · exact k.str.trans h.str
  · exact k.pc.trans h.pc
  · exact k.spr.trans h.spr
  · exact k.stn.trans h.stn
  · exact k.bob.trans h.bob
  · exact k.skn.trans h.skn
  · exact k.ct.trans h.ct
  · exact k.tx.trans h.tx
  · exact k.rx.trans h.rx
  · exact k.ld.trans h.ld
  · exact k.stk.trans h.stk
  · exact k.reg.trans h.reg
  · exact k.mem.trans h.mem
  · exact k.pending.trans h.pending
  · rw [k.sq, h.sq]
  · exact k.chan.trans h.chan
  · exact k.loop.trans h.loop
  · exact k.loopDefer.trans h.loopDefer
  · exact k.margin.trans h.margin
  · intro d hd; have e := h.tests d hd; rw [← e] at hd; exact (k.tests d hd).trans e

theorem foldl_kept {ι : Type} (f : State → ι → State) (h : ∀ s i, Kept s (f s i)) (l : List ι) (s : State) : Kept s (l.foldl f s) := by
  induction l generalizing s with
  | nil => exact Kept.refl s
  | cons i l ih => exact (h s i).trans (ih (f s i))

theorem clearSleepVotes_kept (s : State) : Kept s (clearSleepVotes s) :=
  foldl_kept _ (fun s t => by constructor <;> first | rfl | (intro d _; rfl)) _ s
theorem stopDowns_kept (s : State) : Kept s (stopDowns s) :=
  foldl_kept _ (fun s d => by constructor <;> first | rfl | (intro d _; rfl)) _ s
theorem raise_kept (s : State) (g n : Nat) : Kept s (raise s g n) := by constructor <;> first | rfl | (intro d _; rfl)
theorem pw_kept (s : State) (p : Power) : Kept s { s with pw := p } := by constructor <;> first | rfl | (intro d _; rfl)
theorem recordWake_kept (s : State) (a b : Nat) : Kept s (recordWake s a b) := by
  unfold recordWake
  dsimp only
  repeat' split
  all_goals first | exact Kept.refl s | exact pw_kept s _
theorem wakeEvent_kept (s : State) (a b : Nat) : Kept s (wakeEvent s a b) := by
  unfold wakeEvent
  split
  · refine ((stopDowns_kept s).trans (recordWake_kept _ a b)).trans (Kept.trans ?_ (Kept.trans (clearSleepVotes_kept _) (raise_kept _ _ _)))
    constructor <;> first | rfl | (intro d _; rfl)
  · refine (recordWake_kept s a b).trans (Kept.trans ?_ (Kept.trans (clearSleepVotes_kept _) (pw_kept _ _)))
    constructor <;> first | rfl | (intro d _; rfl)
  · split
    · exact recordWake_kept s a b
    · exact Kept.refl s
theorem settleWake_kept (s : State) : Kept s (settleWake s) := by
  unfold settleWake
  split
  · exact (wakeEvent_kept s 5 _).trans (by constructor <;> first | rfl | (intro d _; rfl))
  · exact Kept.refl s
theorem claimT4_kept (s : State) : Kept s (claimT4 s) := by
  unfold claimT4
  split
  · constructor <;> first | rfl | (intro d _; rfl)
  · exact Kept.refl s
theorem testOf_evalTest (s : State) (d x : Nat) (hx : (testOf s x).st ≠ .deferred) : testOf (evalTest s d) x = testOf s x := by
  unfold evalTest testOf setTest
  by_cases h : x = d
  · subst h
    have hd : (tget {} s.tst.dom x).st ≠ .deferred := hx
    rw [tget_tset_same]
    exact if_neg (by simp [hd])
  · exact tget_tset_other _ _ _ h
theorem evalTest_kept (s : State) (d : Nat) : Kept s (evalTest s d) := by
  constructor <;> first | rfl | (intro x hx; exact testOf_evalTest s d x hx)
theorem evalDomain_kept (s : State) (d : Nat) : Kept s (evalDomain s d) := by
  unfold evalDomain
  dsimp only
  split
  · constructor <;> first | rfl | (intro d _; rfl)
  · constructor <;> first | rfl | (intro d _; rfl)

/-- Everything that `settle` leaves alone. -/
theorem settle_kept (s : State) : Kept s (settle s) := by
  unfold settle
  exact ((settleWake_kept s).trans (claimT4_kept _)).trans <| (foldl_kept _ evalTest_kept _ _).trans <|
    (foldl_kept _ evalDomain_kept _ _).trans (foldl_kept _ evalDomain_kept _ _)

@[simp] theorem settle_tm (s : State) : (settle s).tm = s.tm := (settle_kept s).tm
@[simp] theorem settle_tu (s : State) : (settle s).tu = s.tu := (settle_kept s).tu
@[simp] theorem settle_st0 (s : State) : (settle s).st0 = s.st0 := (settle_kept s).st0
@[simp] theorem settle_cr (s : State) : (settle s).cr = s.cr := (settle_kept s).cr
@[simp] theorem settle_port (s : State) : (settle s).port = s.port := (settle_kept s).port
@[simp] theorem settle_ctr (s : State) : (settle s).ctr = s.ctr := (settle_kept s).ctr
@[simp] theorem settle_str (s : State) : (settle s).str = s.str := (settle_kept s).str
@[simp] theorem settle_pc (s : State) : (settle s).pc = s.pc := (settle_kept s).pc
@[simp] theorem settle_spr (s : State) : (settle s).spr = s.spr := (settle_kept s).spr
@[simp] theorem settle_stn (s : State) : (settle s).stn = s.stn := (settle_kept s).stn
@[simp] theorem settle_bob (s : State) : (settle s).bob = s.bob := (settle_kept s).bob
@[simp] theorem settle_skn (s : State) : (settle s).skn = s.skn := (settle_kept s).skn
@[simp] theorem settle_ct (s : State) : (settle s).ct = s.ct := (settle_kept s).ct
@[simp] theorem settle_tx (s : State) : (settle s).tx = s.tx := (settle_kept s).tx
@[simp] theorem settle_rx (s : State) : (settle s).rx = s.rx := (settle_kept s).rx
@[simp] theorem settle_ld (s : State) : (settle s).ld = s.ld := (settle_kept s).ld
@[simp] theorem settle_stk (s : State) : (settle s).stk = s.stk := (settle_kept s).stk
@[simp] theorem settle_reg (s : State) : (settle s).reg = s.reg := (settle_kept s).reg
@[simp] theorem settle_mem (s : State) : (settle s).mem = s.mem := (settle_kept s).mem
@[simp] theorem settle_pending (s : State) : (settle s).pending = s.pending := (settle_kept s).pending
@[simp] theorem settle_iir (s : State) : (settle s).sq.iir = s.sq.iir := by rw [(settle_kept s).sq]
@[simp] theorem settle_journal (s : State) : (settle s).sq.journal = s.sq.journal := by rw [(settle_kept s).sq]
@[simp] theorem settle_owner (s : State) : (settle s).sq.owner = s.sq.owner := by rw [(settle_kept s).sq]
@[simp] theorem settle_chan (s : State) : (settle s).ck.chan = s.ck.chan := (settle_kept s).chan
@[simp] theorem ring_settle (s : State) (r : Nat) : ring (settle s) r = ring s r := by simp [ring]
@[simp] theorem pset_settle (s : State) (p : Nat) : pset (settle s) p = pset s p := by simp [pset]
@[simp] theorem pdef_settle (s : State) (p : Nat) : pdef (settle s) p = pdef s p := by simp [pdef]
@[simp] theorem line_settle (s : State) (p : Nat) : line (settle s) p = line s p := by simp [line]
@[simp] theorem strm_settle (s : State) (p : Nat) : strm (settle s) p = strm s p := by simp [strm]
@[simp] theorem bobn_settle (s : State) (p : Nat) : bobn (settle s) p = bobn s p := by simp [bobn]
@[simp] theorem skein_settle (s : State) (p : Nat) : skein (settle s) p = skein s p := by simp [skein]
@[simp] theorem contr_settle (s : State) (p : Nat) : contr (settle s) p = contr s p := by simp [contr]
@[simp] theorem stn_settle (s : State) (p : Nat) : stn (settle s) p = stn s p := by simp [stn]
@[simp] theorem chan_settle (s : State) (p : Nat) : chan (settle s) p = chan s p := by simp [chan]
@[simp] theorem iir_settle (s : State) (p : Nat) : iir (settle s) p = iir s p := by simp [iir]

theorem foldl_same {ι β : Type} (p : State → β) (f : State → ι → State) (h : ∀ s i, p (f s i) = p s) (l : List ι) (s : State) : p (l.foldl f s) = p s := by
  induction l generalizing s with
  | nil => rfl
  | cons i l ih => simp only [List.foldl_cons]; rw [ih, h]

/-- After the wake events, `settle` changes nothing of the interrupt controller. -/
theorem settle_ic (s : State) : (settle s).ic = (settleWake s).ic := by
  unfold settle
  refine (foldl_same (fun s => s.ic) evalDomain (fun s d => by unfold evalDomain; dsimp only; split <;> rfl) _ _).trans ?_
  refine (foldl_same (fun s => s.ic) evalDomain (fun s d => by unfold evalDomain; dsimp only; split <;> rfl) _ _).trans ?_
  refine (foldl_same (fun s => s.ic) evalTest (fun _ _ => rfl) _ _).trans ?_
  unfold claimT4; split <;> rfl
/-- No raise waits after `settle`. -/
theorem settle_wakeHit (s : State) : (settle s).ic.wakeHit = none := by
  rw [settle_ic]
  unfold settleWake
  split
  · rfl
  · assumption

end Sys2Proof.Machine
end

