-- ==== Sys2Proof/Laws/Spindle.lean ====
section
/-! SUPPORT. What the end of a command, the start of an instruction and its completion do, said once: `settle_untouched`,
`start_runs`, `completes`, `waits`. -/
namespace Sys2Proof.Machine

/-! ### Untouched -/
theorem Untouched.refl (but : List Part) (s : State) : Untouched but s s :=
  ⟨rfl, fun p _ => by cases p <;> simp [Part.same]⟩
theorem Part.same_trans {p : Part} {s t u : State} (h : p.same s t) (k : p.same t u) : p.same s u := by
  cases p
  case memory => intro a; exact (k a).trans (h a)
  case spindle =>
    obtain ⟨a1, a2, a3, a4, a5, a6, a7⟩ := h; obtain ⟨b1, b2, b3, b4, b5, b6, b7⟩ := k
    exact ⟨b1.trans a1, b2.trans a2, b3.trans a3, b4.trans a4, b5.trans a5, b6.trans a6, b7.trans a7⟩
  case power =>
    obtain ⟨a, a'⟩ := h; obtain ⟨b, b'⟩ := k
    refine ⟨?_, fun hs => ?_⟩
    · rw [a] at b; exact b
    · have hn : t.pw.sleep = s.pw.sleep := by rw [a]
      exact (b' (by rw [hn]; exact hs)).trans (a' hs)
  case loops => exact ⟨k.1.trans h.1, k.2.trans h.2⟩
  case tests => intro d hd; have e := h d hd; rw [← e] at hd; exact (k d hd).trans e
  all_goals exact k.trans h
theorem Untouched.trans {but : List Part} {s t u : State} (h : Untouched but s t) (k : Untouched but t u) : Untouched but s u :=
  ⟨k.1.trans h.1, fun p hp => Part.same_trans (h.2 p hp) (k.2 p hp)⟩
theorem Untouched.weaken {b b' : List Part} {s t : State} (h : Untouched b s t) (hb : ∀ p ∈ b, p ∈ b') : Untouched b' s t :=
  ⟨h.1, fun p hp => h.2 p fun hm => hp (hb p hm)⟩

/-! ### The end of a command -/
theorem foldl_rel {ι : Type} (R : State → State → Prop) (hr : ∀ s, R s s) (ht : ∀ s t u, R s t → R t u → R s u)
    (f : State → ι → State) (h : ∀ s i, R s (f s i)) (l : List ι) (s : State) : R s (l.foldl f s) := by
  induction l generalizing s with
  | nil => exact hr s
  | cons i l ih => exact ht _ _ _ (h s i) (ih (f s i))

theorem claimT4_untouched (s : State) : Untouched [] s (claimT4 s) := by
  unfold claimT4
  split
  · refine ⟨rfl, fun p _ => ?_⟩
    cases p
    case memory => intro a; rfl
    case spindle => exact ⟨rfl, rfl, rfl, rfl, rfl, rfl, rfl⟩
    case power => exact ⟨rfl, fun _ => rfl⟩
    case loops => exact ⟨rfl, rfl⟩
    case tests => intro d _; rfl
    all_goals rfl
  · exact Untouched.refl _ _
theorem evalTest_untouched (s : State) (d : Nat) : Untouched [] s (evalTest s d) := by
  refine ⟨rfl, fun p _ => ?_⟩
  cases p
  case memory => intro a; rfl
  case spindle => exact ⟨rfl, rfl, rfl, rfl, rfl, rfl, rfl⟩
  case power => exact ⟨rfl, fun _ => rfl⟩
  case loops => exact ⟨rfl, rfl⟩
  case tests => intro x hx; exact testOf_evalTest s d x hx
  all_goals rfl
theorem evalDomain_untouched (s : State) (d : Nat) : Untouched [] s (evalDomain s d) := by
  unfold evalDomain
  dsimp only
  refine ⟨by split <;> rfl, fun p _ => ?_⟩
  cases p
  case memory => intro a; split <;> rfl
  case spindle => split <;> exact ⟨rfl, rfl, rfl, rfl, rfl, rfl, rfl⟩
  case power =>
    split
    · rename_i h
      simp only [Bool.and_eq_true, beq_iff_eq] at h
      exact ⟨rfl, fun hn => absurd h.1.2 hn⟩
    · exact ⟨rfl, fun _ => rfl⟩
  case loops => split <;> exact ⟨rfl, rfl⟩
  case tests => intro x _; split <;> rfl
  all_goals split <;> rfl
theorem foldl_untouched {ι : Type} (f : State → ι → State) (h : ∀ s i, Untouched [] s (f s i)) (l : List ι) (s : State) :
    Untouched [] s (l.foldl f s) :=
  foldl_rel (Untouched []) (Untouched.refl []) (fun _ _ _ => Untouched.trans) f h l s

/-- Without a raise that wakes the block, the end of a command changes domains, the claim of T4 and deferred tests alone. -/
theorem settle_untouched (s : State) (h : s.ic.wakeHit = none) : Untouched [] s (settle s) := by
  have hs : settleWake s = s := by unfold settleWake; rw [h]
  unfold settle
  rw [hs]
  exact (claimT4_untouched s).trans <| (foldl_untouched _ evalTest_untouched _ _).trans <| (foldl_untouched _ evalDomain_untouched _ _).trans (foldl_untouched _ evalDomain_untouched _ _)

/-- What `settle` keeps whether or not the block wakes. -/
theorem settle_kept_untouched (s : State) : Untouched loud s (settle s) := by
  have k := settle_kept s
  refine ⟨k.pending, fun p hp => ?_⟩
  cases p
  case memory => intro a; rw [k.mem]
  case irq => simp [loud] at hp
  case power => simp [loud] at hp
  case checks => simp [loud] at hp
  case spindle => rw [Part.same, k.sq]; exact ⟨rfl, rfl, rfl, rfl, rfl, rfl, rfl⟩
  case margins => exact k.margin
  case loops => exact ⟨k.loop, k.loopDefer⟩
  case tests => exact k.tests
  case clock => exact k.tm
  case timeUnit => exact k.tu
  case starter => exact k.st0
  case rings => exact k.cr
  case ports => exact k.port
  case counters => exact k.ctr
  case streams => exact k.str
  case parsers => exact k.pc
  case spreads => exact k.spr
  case stations => exact k.stn
  case bobbins => exact k.bob
  case skeins => exact k.skn
  case contracts => exact k.ct
  case txPath => exact k.tx
  case rxPath => exact k.rx
  case ledger => exact k.ld
  case stack => exact k.stk
  case regPort => exact k.reg

/-! ### Starting -/
theorem setRing_untouched (s : State) (r : Nat) (x : Ring) : Untouched [.rings] s (setRing s r x) := by
  refine ⟨rfl, fun p hp => ?_⟩
  cases p
  case rings => simp at hp
  case memory => intro a; rfl
  case spindle => exact ⟨rfl, rfl, rfl, rfl, rfl, rfl, rfl⟩
  case power => exact ⟨rfl, fun _ => rfl⟩
  case loops => exact ⟨rfl, rfl⟩
  case tests => intro d _; rfl
  all_goals rfl
theorem startRing_untouched (s : State) (op : Nat) (c : Cmd) : Untouched [.rings] s (startRing s op c) := by
  refine ⟨rfl, fun p hp => ?_⟩
  cases p
  case rings => simp at hp
  case memory => intro a; rfl
  case spindle => exact ⟨rfl, rfl, rfl, rfl, rfl, rfl, rfl⟩
  case power => exact ⟨rfl, fun _ => rfl⟩
  case loops => exact ⟨rfl, rfl⟩
  case tests => intro d _; rfl
  all_goals rfl
theorem ring_startRing_other (s : State) (op : Nat) (c : Cmd) {q : Nat} (h : q ≠ c.ring) : ring (startRing s op c) q = ring s q :=
  ring_table_other s.cr _ h
theorem ring_startRing (s : State) (op : Nat) (c : Cmd) :
    RingRegs (ring s c.ring) (ring (startRing s op c) c.ring) ∧ (ring (startRing s op c) c.ring).record = (ring s c.ring).record
    ∧ (c.group ≤ 64 → (ring (startRing s op c) c.ring).skip = (ring s c.ring).skip) := by
  have e : ring (startRing s op c) c.ring = _ := ring_setRing s c.ring _
  rw [e]
  refine ⟨⟨rfl, rfl, rfl, rfl, rfl, rfl, rfl, rfl, rfl, rfl, rfl⟩, rfl, fun h => ?_⟩
  simp only [if_neg (show ¬ ((ring s c.ring).left = 0 ∧ 64 < c.group) by omega)]
theorem startRing_frame (s : State) (op : Nat) (c : Cmd) : RingFrame s (startRing s op c) c.ring :=
  ⟨(ring_startRing s op c).1, fun _ h => ring_startRing_other s op c h⟩
theorem RingRegs.trans {a b c : Ring} (h : RingRegs a b) (k : RingRegs b c) : RingRegs a c := by
  obtain ⟨h1, h2, h3, h4, h5, h6, h7, h8, h9, h10, h11⟩ := h
  obtain ⟨k1, k2, k3, k4, k5, k6, k7, k8, k9, k10, k11⟩ := k
  exact ⟨k1.trans h1, k2.trans h2, k3.trans h3, k4.trans h4, k5.trans h5, k6.trans h6, k7.trans h7, k8.trans h8, k9.trans h9, k10.trans h10, k11.trans h11⟩
theorem RingFrame.trans {s t u : State} {r : Nat} (h : RingFrame s t r) (k : RingFrame t u r) : RingFrame s u r :=
  ⟨h.1.trans k.1, fun q hq => (k.2 q hq).trans (h.2 q hq)⟩
/-- A start changes nothing that the checks of R276 look at. -/
theorem preCheck_start (s : State) (op : Nat) (c : Cmd) : preCheck (startRing s op c) op c = preCheck s op c := by
  obtain ⟨⟨-, hpriv, -, -, -, -, -, -, -, hgrant, -⟩, -, -⟩ := ring_startRing s op c
  unfold preCheck privOk; rw [hpriv, hgrant]; rfl

/-- The bucket of an insertion depends on the station table and the domains alone. -/
theorem freeSlot_rings (s : State) (x : Tbl Ring) (q : Spindle) (u : Nat) : freeSlot { s with cr := x, sq := q } u = freeSlot s u := by
  simp only [freeSlot, isFailed, dom, stn]; rfl
theorem otherCand_rings (s : State) (x : Tbl Ring) (q : Spindle) (b v : Nat) : otherCand { s with cr := x, sq := q } b v = otherCand s b v := by
  simp only [otherCand, stnKey, cands, stn]; rfl
theorem findPath_rings (s : State) (x : Tbl Ring) (q : Spindle) (rot n b : Nat) (path : List (Nat × Nat)) :
    findPath { s with cr := x, sq := q } rot n b path = findPath s rot n b path := by
  induction n generalizing b path with
  | zero => rfl
  | succ n ih => simp only [findPath, otherCand_rings, freeSlot_rings, ih, stn]
theorem insertBucket_rings (s : State) (x : Tbl Ring) (q : Spindle) (fid mac : Nat) :
    insertBucket { s with cr := x, sq := q } fid mac = insertBucket s fid mac := by
  simp only [insertBucket, freeSlot_rings, findPath_rings, cands]; rfl
theorem keyBank_rings (s : State) (x : Tbl Ring) (q : Spindle) (fid mac : Nat) : keyBank { s with cr := x, sq := q } fid mac = keyBank s fid mac := by
  unfold keyBank; rw [insertBucket_rings]; rfl
/-- The domains an instruction needs depend on no ring and not on the Spindle. -/
theorem opNeeds_rings (s : State) (x : Tbl Ring) (q : Spindle) (op : Nat) (c : Cmd) : opNeeds { s with cr := x, sq := q } op c = opNeeds s op c := by
  unfold opNeeds; simp only [keyBank_rings]; rfl
theorem startRing_eq (s : State) (op : Nat) (c : Cmd) : ∃ x q, startRing s op c = { s with cr := x, sq := q } ∧ q.journal = s.sq.journal :=
  ⟨_, _, rfl, rfl⟩
theorem started_free (s : State) (op : Nat) (c : Cmd) : objectHeld (startRing s op c) op c = objectHeld s op c
    ∧ needsFailed (startRing s op c) (opNeeds (startRing s op c) op c) = needsFailed s (opNeeds s op c)
    ∧ needsOn (startRing s op c) (opNeeds (startRing s op c) op c) = needsOn s (opNeeds s op c) := by
  obtain ⟨x, q, e, hj⟩ := startRing_eq s op c
  rw [e, opNeeds_rings]
  refine ⟨?_, rfl, rfl⟩
  unfold objectHeld
  show (_ && q.journal.any _) = _
  rw [hj]; rfl

/-- A command that carries no OPCODE of its own has its row's. -/
theorem opOf_own {op : Nat} {c : Cmd} (h : c.opcode = none) : opOf op c = op := by unfold opOf; rw [h]
/-- An instruction that can start runs its body on the state the start leaves. -/
theorem start_runs {s : State} {op : Nat} {use : Cmd → List (Nat × Nat × Nat)} {c : Cmd} (h : Starts s op use c)
    (body : JEntry → State → StepRes) :
    startRow op use body c s = take (entryOf s op c) (body (entryOf s op c) (started s op c)) := by
  obtain ⟨-, -, hskip⟩ := ring_startRing s op c
  have e1 : startRow op use body c s = runCommand op use body c (startRing s op c) := by
    unfold startRow; rw [h.head, h.room, h.others]; rfl
  have e2 : firstStep use body (entryOf s op c) (started s op c) = body (entryOf s op c) (started s op c) := by
    obtain ⟨f1, f2, f3⟩ := started_free s op c
    show firstStep use body (jentry (startRing s op c) op c) (startRing s op c) = body (jentry (startRing s op c) op c) (startRing s op c)
    generalize hu : startRing s op c = u at *
    unfold firstStep
    show (if !clean c (use c) then _ else if objectHeld u op c then _ else if needsFailed u (opNeeds u op c) then _ else if !needsOn u (opNeeds u op c) then _ else _) = _
    rw [f1, f2, f3, h.reserved, h.free, h.alive, h.domains]; rfl
  rw [e1, ← e2]
  unfold runCommand
  rw [hskip h.short, h.unskipped, h.fetched, preCheck_start, h.checked]
  rfl

/-! ### Completing -/
theorem finish_untouched (s : State) (op : Nat) (c : Cmd) (st : BitVec 8) (res : BitVec 64) : Untouched [.rings] s (finish s op c st res) :=
  setRing_untouched s c.ring _
theorem finish_frame (s : State) (op : Nat) (c : Cmd) (st : BitVec 8) (res : BitVec 64) : RingFrame s (finish s op c st res) c.ring := by
  refine ⟨?_, fun q h => ring_setRing_other s _ h⟩
  have e : ring (finish s op c st res) c.ring = _ := ring_setRing s c.ring _
  rw [e]
  exact ⟨rfl, rfl, rfl, rfl, rfl, rfl, rfl, rfl, rfl, rfl, rfl⟩
/-- The record of R277. -/
theorem finish_record (s : State) (op : Nat) (c : Cmd) (st : BitVec 8) (res : BitVec 64) :
    (ring (finish s op c st res) c.ring).record = some { status := st, opcode := BitVec.ofNat 8 op, tag := c.tag, index := (ring s c.ring).blockIdx, linked := decide (0 < (ring s c.ring).left), irq := irqFlag c, result := res } := by
  have e : ring (finish s op c st res) c.ring = _ := ring_setRing s c.ring _
  rw [e]
theorem settle_frame (s : State) (r : Nat) : RingFrame s (settle s) r := by
  refine ⟨?_, fun q _ => ring_settle s q⟩
  rw [ring_settle]
  exact ⟨rfl, rfl, rfl, rfl, rfl, rfl, rfl, rfl, rfl, rfl, rfl⟩

/-- A command whose answer is a completion: its record and frame. -/
theorem completes {s s' : State} {op : Nat} {use : Cmd → List (Nat × Nat × Nat)} (body : JEntry → State → StepRes) {c : Cmd}
    {st : BitVec 8} {res : BitVec 64} {but : List Part} (h : Starts s op use c)
    (hb : body (entryOf s op c) (started s op c) = .done st res s') (hcr : s'.cr = (started s op c).cr)
    (hw : s'.ic.wakeHit = none) (hu : Untouched (.rings :: but) (started s op c) s') :
    instr op use body c s = .next (settle (finish s' op c st res)) ∧ Completes s (settle (finish s' op c st res)) op c st res but := by
  have hr : ∀ q, ring s' q = ring (startRing s op c) q := fun q => by unfold ring; rw [hcr]
  have hf : RingFrame (startRing s op c) s' c.ring := ⟨by rw [hr]; exact ⟨rfl, rfl, rfl, rfl, rfl, rfl, rfl, rfl, rfl, rfl, rfl⟩, fun q _ => hr q⟩
  refine ⟨by unfold instr; rw [opOf_own h.own, start_runs h, hb]; rfl, ?_, ?_, ?_⟩
  · refine ⟨_, (by rw [ring_settle]; exact finish_record s' op c st res), rfl, rfl, rfl, ?_, rfl, rfl⟩
    simp only [hr]
    exact (startRing_frame s op c).1.2.2.2.2.2.2.1
  · exact (startRing_frame s op c).trans <| hf.trans <| (finish_frame s' op c st res).trans (settle_frame _ _)
  · have k1 := (startRing_untouched s op c).weaken (b' := .rings :: but) (fun p hp => by simp at hp; simp [hp])
    have k2 := (finish_untouched s' op c st res).weaken (b' := .rings :: but) (fun p hp => by simp at hp; simp [hp])
    have k3 := (settle_untouched (finish s' op c st res) hw).weaken (b' := .rings :: but) (fun p hp => by cases hp)
    exact k1.trans <| hu.trans <| k2.trans k3

/-- A commit changes its ring and the Spindle alone. -/
theorem take_wait_untouched (s : State) (j : JEntry) (cond : Cond) (stage : Nat) (prog : BitVec 64) (scr : List Nat) :
    Untouched [.rings, .spindle] s (take j (.wait s cond stage prog scr)) := by
  refine ⟨rfl, fun p hp => ?_⟩
  cases p
  case rings => simp at hp
  case spindle => simp at hp
  case memory => intro a; rfl
  case power => exact ⟨rfl, fun _ => rfl⟩
  case loops => exact ⟨rfl, rfl⟩
  case tests => intro d _; rfl
  all_goals rfl
/-- A ring that can start has no record outstanding. -/
theorem starts_record {s : State} {op : Nat} {use : Cmd → List (Nat × Nat × Nat)} {c : Cmd} (h : Starts s op use c) : (ring s c.ring).record = none := by
  have := h.head
  simp only [ready, ringLive, busyRing, Bool.and_eq_true, Bool.not_eq_true', Bool.or_eq_false_iff, Option.isSome_eq_false_iff, Option.isNone_iff_eq_none] at this
  simp [this]
/-- A command whose answer is a commit: its journal entry and frame. -/
theorem waits {s s' : State} {op : Nat} {use : Cmd → List (Nat × Nat × Nat)} (body : JEntry → State → StepRes) {c : Cmd}
    {cond : Cond} {stage : Nat} {prog : BitVec 64} {scr : List Nat} {but : List Part} (h : Starts s op use c)
    (hb : body (entryOf s op c) (started s op c) = .wait s' cond stage prog scr) (hcr : s'.cr = (started s op c).cr)
    (hj : s'.sq.journal = s.sq.journal) (ht : s'.tm.now = s.tm.now) (hw : s'.ic.wakeHit = none)
    (hu : Untouched (.rings :: .spindle :: but) (started s op c) s') :
    instr op use body c s = .next (settle (take (entryOf s op c) (.wait s' cond stage prog scr)))
    ∧ Waits s (settle (take (entryOf s op c) (.wait s' cond stage prog scr))) op c cond but := by
  have hr : ∀ q, ring s' q = ring (startRing s op c) q := fun q => by unfold ring; rw [hcr]
  have hrec := starts_record h
  refine ⟨by unfold instr; rw [opOf_own h.own, start_runs h, hb], ?_⟩
  have e1 := ring_setRing s' c.ring { ring s' c.ring with held := true }
  have ei : ∀ e : JEntry, iir (settle (take (entryOf s op c) (.wait s' cond stage prog scr))) c.ring
      = { iir s' c.ring with opcode := BitVec.ofNat 8 op, tag := c.tag, object := c.obj, sub := c.sub, index := (entryOf s op c).index
                             step := 1, progress := prog, task := false } := fun e => by
    rw [iir_settle]; exact tget_tset_same _ _ _ _
  refine ⟨?_, ?_, ?_, ?_, ⟨{ entryOf s op c with step := 1, cond := cond, stage := stage, progress := prog, scratch := scr, since := s'.tm.now, stalled := false },
    ?_, rfl, rfl, rfl, rfl, rfl, rfl, rfl, ht, ?_, ?_, ?_⟩⟩
  · rw [ring_settle]; exact (congrArg Ring.held e1)
  · rw [ring_settle]; refine (congrArg Ring.record e1).trans ?_
    simp only [hr, (ring_startRing s op c).2.1, hrec]
  · refine RingFrame.trans ?_ (settle_frame _ _)
    refine RingFrame.trans (startRing_frame s op c) ⟨?_, fun q hq => ?_⟩
    · refine Eq.subst (motive := fun R => RingRegs _ R) e1.symm ?_
      rw [hr]; exact ⟨rfl, rfl, rfl, rfl, rfl, rfl, rfl, rfl, rfl, rfl, rfl⟩
    · exact (ring_setRing_other s' _ hq).trans (hr q)
  · have k1 := (startRing_untouched s op c).weaken (b' := .rings :: .spindle :: but) (fun p hp => by simp at hp; simp [hp])
    have k2 := (take_wait_untouched s' (entryOf s op c) cond stage prog scr).weaken (b' := .rings :: .spindle :: but) (fun p hp => by simp at hp; rcases hp with rfl | rfl <;> simp)
    exact k1.trans (hu.trans (k2.trans ((settle_untouched (take (entryOf s op c) (.wait s' cond stage prog scr)) hw).weaken (fun p hp => by cases hp))))
  · rw [settle_journal]
    show s'.sq.journal ++ _ = _
    rw [hj]; rfl
  · rw [ei (entryOf s op c)]
  · rw [ei (entryOf s op c)]
  · rw [ei (entryOf s op c)]

/-! ### What a start and a completion leave, field by field -/
@[simp] theorem startRing_tm (s : State) (op : Nat) (c : Cmd) : (startRing s op c).tm = s.tm := rfl
@[simp] theorem startRing_tu (s : State) (op : Nat) (c : Cmd) : (startRing s op c).tu = s.tu := rfl
@[simp] theorem startRing_st0 (s : State) (op : Nat) (c : Cmd) : (startRing s op c).st0 = s.st0 := rfl
@[simp] theorem startRing_port (s : State) (op : Nat) (c : Cmd) : (startRing s op c).port = s.port := rfl
@[simp] theorem startRing_ctr (s : State) (op : Nat) (c : Cmd) : (startRing s op c).ctr = s.ctr := rfl
@[simp] theorem startRing_str (s : State) (op : Nat) (c : Cmd) : (startRing s op c).str = s.str := rfl
@[simp] theorem startRing_pc (s : State) (op : Nat) (c : Cmd) : (startRing s op c).pc = s.pc := rfl
@[simp] theorem startRing_spr (s : State) (op : Nat) (c : Cmd) : (startRing s op c).spr = s.spr := rfl
@[simp] theorem startRing_stn (s : State) (op : Nat) (c : Cmd) : (startRing s op c).stn = s.stn := rfl
@[simp] theorem startRing_bob (s : State) (op : Nat) (c : Cmd) : (startRing s op c).bob = s.bob := rfl
@[simp] theorem startRing_skn (s : State) (op : Nat) (c : Cmd) : (startRing s op c).skn = s.skn := rfl
@[simp] theorem startRing_ct (s : State) (op : Nat) (c : Cmd) : (startRing s op c).ct = s.ct := rfl
@[simp] theorem startRing_tx (s : State) (op : Nat) (c : Cmd) : (startRing s op c).tx = s.tx := rfl
@[simp] theorem startRing_rx (s : State) (op : Nat) (c : Cmd) : (startRing s op c).rx = s.rx := rfl
@[simp] theorem startRing_ck (s : State) (op : Nat) (c : Cmd) : (startRing s op c).ck = s.ck := rfl
@[simp] theorem startRing_ld (s : State) (op : Nat) (c : Cmd) : (startRing s op c).ld = s.ld := rfl
@[simp] theorem startRing_stk (s : State) (op : Nat) (c : Cmd) : (startRing s op c).stk = s.stk := rfl
@[simp] theorem startRing_reg (s : State) (op : Nat) (c : Cmd) : (startRing s op c).reg = s.reg := rfl
@[simp] theorem startRing_mem (s : State) (op : Nat) (c : Cmd) : (startRing s op c).mem = s.mem := rfl
@[simp] theorem startRing_tst (s : State) (op : Nat) (c : Cmd) : (startRing s op c).tst = s.tst := rfl
@[simp] theorem startRing_ic (s : State) (op : Nat) (c : Cmd) : (startRing s op c).ic = s.ic := rfl
@[simp] theorem startRing_pw (s : State) (op : Nat) (c : Cmd) : (startRing s op c).pw = s.pw := rfl
@[simp] theorem startRing_pending (s : State) (op : Nat) (c : Cmd) : (startRing s op c).pending = s.pending := rfl
@[simp] theorem pdef_startRing (s : State) (op : Nat) (c : Cmd) (n : Nat) : pdef (startRing s op c) n = pdef s n := rfl
@[simp] theorem pset_startRing (s : State) (op : Nat) (c : Cmd) (n : Nat) : pset (startRing s op c) n = pset s n := rfl
@[simp] theorem line_startRing (s : State) (op : Nat) (c : Cmd) (n : Nat) : line (startRing s op c) n = line s n := rfl
@[simp] theorem strm_startRing (s : State) (op : Nat) (c : Cmd) (n : Nat) : strm (startRing s op c) n = strm s n := rfl
@[simp] theorem bobn_startRing (s : State) (op : Nat) (c : Cmd) (n : Nat) : bobn (startRing s op c) n = bobn s n := rfl
@[simp] theorem skein_startRing (s : State) (op : Nat) (c : Cmd) (n : Nat) : skein (startRing s op c) n = skein s n := rfl
@[simp] theorem contr_startRing (s : State) (op : Nat) (c : Cmd) (n : Nat) : contr (startRing s op c) n = contr s n := rfl
@[simp] theorem stn_startRing (s : State) (op : Nat) (c : Cmd) (n : Nat) : stn (startRing s op c) n = stn s n := rfl
@[simp] theorem chan_startRing (s : State) (op : Nat) (c : Cmd) (n : Nat) : chan (startRing s op c) n = chan s n := rfl
@[simp] theorem window_startRing (s : State) (op : Nat) (c : Cmd) (n : Nat) : window (startRing s op c) n = window s n := rfl
@[simp] theorem testOf_startRing (s : State) (op : Nat) (c : Cmd) (n : Nat) : testOf (startRing s op c) n = testOf s n := rfl
@[simp] theorem grp_startRing (s : State) (op : Nat) (c : Cmd) (n : Nat) : grp (startRing s op c) n = grp s n := rfl
@[simp] theorem tgt_startRing (s : State) (op : Nat) (c : Cmd) (n : Nat) : tgt (startRing s op c) n = tgt s n := rfl
@[simp] theorem flt_startRing (s : State) (op : Nat) (c : Cmd) (n : Nat) : flt (startRing s op c) n = flt s n := rfl
@[simp] theorem dom_startRing (s : State) (op : Nat) (c : Cmd) (n : Nat) : dom (startRing s op c) n = dom s n := rfl
@[simp] theorem isEnabled_startRing (s : State) (op : Nat) (c : Cmd) (n : Nat) : isEnabled (startRing s op c) n = isEnabled s n := rfl
@[simp] theorem isOn_startRing (s : State) (op : Nat) (c : Cmd) (n : Nat) : isOn (startRing s op c) n = isOn s n := rfl
@[simp] theorem isFailed_startRing (s : State) (op : Nat) (c : Cmd) (n : Nat) : isFailed (startRing s op c) n = isFailed s n := rfl
@[simp] theorem finish_tm (s : State) (op : Nat) (c : Cmd) (st : BitVec 8) (res : BitVec 64) : (finish s op c st res).tm = s.tm := rfl
@[simp] theorem finish_tu (s : State) (op : Nat) (c : Cmd) (st : BitVec 8) (res : BitVec 64) : (finish s op c st res).tu = s.tu := rfl
@[simp] theorem finish_st0 (s : State) (op : Nat) (c : Cmd) (st : BitVec 8) (res : BitVec 64) : (finish s op c st res).st0 = s.st0 := rfl
@[simp] theorem finish_port (s : State) (op : Nat) (c : Cmd) (st : BitVec 8) (res : BitVec 64) : (finish s op c st res).port = s.port := rfl
@[simp] theorem finish_ctr (s : State) (op : Nat) (c : Cmd) (st : BitVec 8) (res : BitVec 64) : (finish s op c st res).ctr = s.ctr := rfl
@[simp] theorem finish_str (s : State) (op : Nat) (c : Cmd) (st : BitVec 8) (res : BitVec 64) : (finish s op c st res).str = s.str := rfl
@[simp] theorem finish_pc (s : State) (op : Nat) (c : Cmd) (st : BitVec 8) (res : BitVec 64) : (finish s op c st res).pc = s.pc := rfl
@[simp] theorem finish_spr (s : State) (op : Nat) (c : Cmd) (st : BitVec 8) (res : BitVec 64) : (finish s op c st res).spr = s.spr := rfl
@[simp] theorem finish_stn (s : State) (op : Nat) (c : Cmd) (st : BitVec 8) (res : BitVec 64) : (finish s op c st res).stn = s.stn := rfl
@[simp] theorem finish_bob (s : State) (op : Nat) (c : Cmd) (st : BitVec 8) (res : BitVec 64) : (finish s op c st res).bob = s.bob := rfl
@[simp] theorem finish_skn (s : State) (op : Nat) (c : Cmd) (st : BitVec 8) (res : BitVec 64) : (finish s op c st res).skn = s.skn := rfl
@[simp] theorem finish_ct (s : State) (op : Nat) (c : Cmd) (st : BitVec 8) (res : BitVec 64) : (finish s op c st res).ct = s.ct := rfl
@[simp] theorem finish_tx (s : State) (op : Nat) (c : Cmd) (st : BitVec 8) (res : BitVec 64) : (finish s op c st res).tx = s.tx := rfl
@[simp] theorem finish_rx (s : State) (op : Nat) (c : Cmd) (st : BitVec 8) (res : BitVec 64) : (finish s op c st res).rx = s.rx := rfl
@[simp] theorem finish_ck (s : State) (op : Nat) (c : Cmd) (st : BitVec 8) (res : BitVec 64) : (finish s op c st res).ck = s.ck := rfl
@[simp] theorem finish_ld (s : State) (op : Nat) (c : Cmd) (st : BitVec 8) (res : BitVec 64) : (finish s op c st res).ld = s.ld := rfl
@[simp] theorem finish_stk (s : State) (op : Nat) (c : Cmd) (st : BitVec 8) (res : BitVec 64) : (finish s op c st res).stk = s.stk := rfl
@[simp] theorem finish_reg (s : State) (op : Nat) (c : Cmd) (st : BitVec 8) (res : BitVec 64) : (finish s op c st res).reg = s.reg := rfl
@[simp] theorem finish_mem (s : State) (op : Nat) (c : Cmd) (st : BitVec 8) (res : BitVec 64) : (finish s op c st res).mem = s.mem := rfl
@[simp] theorem finish_tst (s : State) (op : Nat) (c : Cmd) (st : BitVec 8) (res : BitVec 64) : (finish s op c st res).tst = s.tst := rfl
@[simp] theorem finish_ic (s : State) (op : Nat) (c : Cmd) (st : BitVec 8) (res : BitVec 64) : (finish s op c st res).ic = s.ic := rfl
@[simp] theorem finish_pw (s : State) (op : Nat) (c : Cmd) (st : BitVec 8) (res : BitVec 64) : (finish s op c st res).pw = s.pw := rfl
@[simp] theorem finish_pending (s : State) (op : Nat) (c : Cmd) (st : BitVec 8) (res : BitVec 64) : (finish s op c st res).pending = s.pending := rfl
@[simp] theorem finish_sq (s : State) (op : Nat) (c : Cmd) (st : BitVec 8) (res : BitVec 64) : (finish s op c st res).sq = s.sq := rfl
@[simp] theorem pdef_finish (s : State) (op : Nat) (c : Cmd) (st : BitVec 8) (res : BitVec 64) (n : Nat) : pdef (finish s op c st res) n = pdef s n := rfl
@[simp] theorem pset_finish (s : State) (op : Nat) (c : Cmd) (st : BitVec 8) (res : BitVec 64) (n : Nat) : pset (finish s op c st res) n = pset s n := rfl
@[simp] theorem line_finish (s : State) (op : Nat) (c : Cmd) (st : BitVec 8) (res : BitVec 64) (n : Nat) : line (finish s op c st res) n = line s n := rfl
@[simp] theorem strm_finish (s : State) (op : Nat) (c : Cmd) (st : BitVec 8) (res : BitVec 64) (n : Nat) : strm (finish s op c st res) n = strm s n := rfl
@[simp] theorem bobn_finish (s : State) (op : Nat) (c : Cmd) (st : BitVec 8) (res : BitVec 64) (n : Nat) : bobn (finish s op c st res) n = bobn s n := rfl
@[simp] theorem skein_finish (s : State) (op : Nat) (c : Cmd) (st : BitVec 8) (res : BitVec 64) (n : Nat) : skein (finish s op c st res) n = skein s n := rfl
@[simp] theorem contr_finish (s : State) (op : Nat) (c : Cmd) (st : BitVec 8) (res : BitVec 64) (n : Nat) : contr (finish s op c st res) n = contr s n := rfl
@[simp] theorem stn_finish (s : State) (op : Nat) (c : Cmd) (st : BitVec 8) (res : BitVec 64) (n : Nat) : stn (finish s op c st res) n = stn s n := rfl
@[simp] theorem chan_finish (s : State) (op : Nat) (c : Cmd) (st : BitVec 8) (res : BitVec 64) (n : Nat) : chan (finish s op c st res) n = chan s n := rfl
@[simp] theorem window_finish (s : State) (op : Nat) (c : Cmd) (st : BitVec 8) (res : BitVec 64) (n : Nat) : window (finish s op c st res) n = window s n := rfl
@[simp] theorem testOf_finish (s : State) (op : Nat) (c : Cmd) (st : BitVec 8) (res : BitVec 64) (n : Nat) : testOf (finish s op c st res) n = testOf s n := rfl
@[simp] theorem grp_finish (s : State) (op : Nat) (c : Cmd) (st : BitVec 8) (res : BitVec 64) (n : Nat) : grp (finish s op c st res) n = grp s n := rfl
@[simp] theorem tgt_finish (s : State) (op : Nat) (c : Cmd) (st : BitVec 8) (res : BitVec 64) (n : Nat) : tgt (finish s op c st res) n = tgt s n := rfl
@[simp] theorem flt_finish (s : State) (op : Nat) (c : Cmd) (st : BitVec 8) (res : BitVec 64) (n : Nat) : flt (finish s op c st res) n = flt s n := rfl
@[simp] theorem dom_finish (s : State) (op : Nat) (c : Cmd) (st : BitVec 8) (res : BitVec 64) (n : Nat) : dom (finish s op c st res) n = dom s n := rfl
@[simp] theorem isEnabled_finish (s : State) (op : Nat) (c : Cmd) (st : BitVec 8) (res : BitVec 64) (n : Nat) : isEnabled (finish s op c st res) n = isEnabled s n := rfl
@[simp] theorem isOn_finish (s : State) (op : Nat) (c : Cmd) (st : BitVec 8) (res : BitVec 64) (n : Nat) : isOn (finish s op c st res) n = isOn s n := rfl
@[simp] theorem isFailed_finish (s : State) (op : Nat) (c : Cmd) (st : BitVec 8) (res : BitVec 64) (n : Nat) : isFailed (finish s op c st res) n = isFailed s n := rfl
@[simp] theorem startRing_journal (s : State) (op : Nat) (c : Cmd) : (startRing s op c).sq.journal = s.sq.journal := rfl
@[simp] theorem startRing_adm (s : State) (op : Nat) (c : Cmd) : (startRing s op c).sq.adm = s.sq.adm := rfl
@[simp] theorem jentry_cmd (s : State) (op : Nat) (c : Cmd) : (jentry s op c).cmd = c := rfl
@[simp] theorem jentry_stage (s : State) (op : Nat) (c : Cmd) : (jentry s op c).stage = 0 := rfl
@[simp] theorem jentry_ring (s : State) (op : Nat) (c : Cmd) : (jentry s op c).ring = c.ring := rfl

/-! ### Raises -/
/-- A raise makes its source pending and leaves every other pending bit. -/
theorem raise_pends (s : State) (g n : Nat) (hn : n < 32) : Pends (raise s g n) g n := by
  unfold Pends grp raise
  rw [tget_tset_same]
  simp only [BitVec.toNat_or, Nat.testBit_or, BitVec.toNat_ofNat, Bool.or_eq_true]
  right
  rw [Nat.mod_eq_of_lt (Nat.pow_lt_pow_right (by decide) hn)]
  exact Nat.testBit_two_pow_self
theorem raise_keeps (s : State) (g n : Nat) {g' n' : Nat} (h : Pends s g' n') : Pends (raise s g n) g' n' := by
  unfold Pends grp raise at *
  by_cases hg : g' = g
  · subst hg; rw [tget_tset_same]; simp only [BitVec.toNat_or, Nat.testBit_or, Bool.or_eq_true]; exact .inl h
  · rw [tget_tset_other _ _ _ hg]; exact h
theorem raise_untouched (s : State) (g n : Nat) : Untouched [.irq] s (raise s g n) := by
  refine ⟨rfl, fun p hp => ?_⟩
  cases p
  case irq => simp at hp
  case memory => intro a; rfl
  case spindle => exact ⟨rfl, rfl, rfl, rfl, rfl, rfl, rfl⟩
  case power => exact ⟨rfl, fun _ => rfl⟩
  case loops => exact ⟨rfl, rfl⟩
  case tests => intro d _; rfl
  all_goals rfl

theorem foldl_group {ι : Type} (f : State → ι → State) (h : ∀ s i, (f s i).ic.group = s.ic.group) (l : List ι) (s : State) :
    (l.foldl f s).ic.group = s.ic.group := foldl_same (fun s => s.ic.group) f h l s
/-- A pending bit outlives the end of a command. -/
theorem settle_pends (s : State) {g n : Nat} (h : Pends s g n) : Pends (settle s) g n := by
  unfold Pends grp
  rw [settle_ic]
  change Pends (settleWake s) g n
  unfold settleWake
  split
  · rename_i g0 _
    change Pends (wakeEvent s 5 g0) g n
    unfold wakeEvent
    have hd : ∀ u : State, (stopDowns u).ic.group = u.ic.group := fun u => by
      unfold stopDowns
      exact foldl_group (fun s d => setDom s d (let D := dom s d; if D.phase == .quiesce || D.phase == .save then { D with phase := .none } else D)) (fun _ _ => rfl) _ u
    have hv : ∀ u : State, (clearSleepVotes u).ic.group = u.ic.group := fun u => by
      unfold clearSleepVotes
      exact foldl_group (fun s t => setTgt s t { tgt s t with sleepGranted := false, sleepHeld := false }) (fun _ _ => rfl) _ u
    have hr : ∀ (u : State) a b, (recordWake u a b).ic.group = u.ic.group := fun u a b => by
      unfold recordWake; dsimp only; repeat' split
      all_goals rfl
    split
    · refine raise_keeps _ _ _ ?_
      unfold Pends grp; rw [hv]; simp only []; rw [hr, hd]; exact h
    · simp only []
      unfold Pends grp; rw [hv]; simp only []; rw [hr]; exact h
    · split
      · unfold Pends grp; rw [hr]; exact h
      · exact h
  · exact h

/-! ### The fabric memory -/
/-- Bytes outside a write are as they were, whichever bytes of a failed write landed. -/
theorem memWrite_outside (m : List Host.Cell) (a : Nat) (o : Octets) (x : Nat) (h : x < a ∨ a + o.length ≤ x) :
    memGet (memWrite m a o) x = memGet m x := by
  induction o generalizing m a with
  | nil => rfl
  | cons b o ih =>
    simp only [List.length_cons] at h
    rw [memWrite, ih _ _ (by omega), memGet, memPut, tget_tset_other _ _ _ (by omega)]; rfl
theorem memWriteFree_outside (k : Nat) (m : List Host.Cell) (a : Nat) (o : Octets) (x : Nat) (h : x < a ∨ a + o.length ≤ x) :
    memGet (memWriteFree k m a o) x = memGet m x := by
  induction o generalizing m a with
  | nil => rfl
  | cons b o ih =>
    simp only [List.length_cons] at h
    rw [memWriteFree, ih _ _ (by omega)]
    split
    · rw [memGet, memPut, tget_tset_other _ _ _ (by omega)]; rfl
    · rfl
/-- Byte `i` of a write reads back. -/
theorem memWrite_inside (m : List Host.Cell) (a : Nat) (o : Octets) (i : Nat) (h : i < o.length) :
    memGet (memWrite m a o) (a + i) = o[i] := by
  induction o generalizing m a i with
  | nil => simp at h
  | cons b o ih =>
    rw [memWrite]
    cases i with
    | zero => rw [memWrite_outside _ _ _ _ (by omega)]; simp [memGet, memPut]
    | succ i =>
      have := ih (memPut m a b) (a + 1) i (by simpa using h)
      rw [show a + 1 + i = a + (i + 1) by omega] at this
      simpa using this
/-- A write keeps the canonical form. -/
theorem memWrite_wf (m : List Host.Cell) (a : Nat) (o : Octets) (h : Memory.wf m) : Memory.wf (memWrite m a o) := by
  induction o generalizing m a with
  | nil => exact h
  | cons b o ih => exact ih _ _ (twf_tset 0 m a b h)
theorem memWriteFree_wf (k : Nat) (m : List Host.Cell) (a : Nat) (o : Octets) (h : Memory.wf m) : Memory.wf (memWriteFree k m a o) := by
  induction o generalizing m a with
  | nil => exact h
  | cons b o ih =>
    rw [memWriteFree]
    refine ih _ _ ?_
    split
    · exact twf_tset 0 m a b h
    · exact h
/-- Every write of the block keeps the canonical form, answered with an error or not. -/
theorem fabWrite_wf (s : State) (a : Nat) (o : Octets) (e : Bool) (h : Memory.wf s.mem) : Memory.wf (fabWrite s a o e).mem := by
  unfold fabWrite
  split
  · exact memWriteFree_wf _ _ _ _ h
  · exact memWrite_wf _ _ _ h
theorem fabWrite_outside (s : State) (a : Nat) (o : Octets) (e : Bool) (x : Nat) (h : x < a ∨ a + o.length ≤ x) :
    memGet (fabWrite s a o e).mem x = memGet s.mem x := by
  unfold fabWrite
  split
  · exact memWriteFree_outside _ _ _ _ _ h
  · exact memWrite_outside _ _ _ _ h
/-- The memory at reset lists nothing. -/
theorem reset_mem_wf : Memory.wf State.reset.mem := rfl

/-! ### Rows that are no instruction -/
/-- A row that changed only the parts named. -/
theorem answers {s u : State} {but : List Part} {P : State → Prop} (hw : u.ic.wakeHit = none) (hu : Untouched but s u)
    (hp : P (settle u)) : Answers (event u) s but P :=
  ⟨settle u, rfl, hp, hu.trans ((settle_untouched u hw).weaken fun p h => by cases h)⟩
/-- A row that may have raised an event. -/
theorem answers_loud {s u : State} {but : List Part} {P : State → Prop} (hl : ∀ p ∈ loud, p ∈ but) (hu : Untouched but s u)
    (hp : P (settle u)) : Answers (event u) s but P :=
  ⟨settle u, rfl, hp, hu.trans ((settle_kept_untouched u).weaken hl)⟩
theorem lineIs {s u t : State} {p : Nat} {L : Line} (h : LineIs s u p L) (k : t.port = u.port) : LineIs s t p L := by
  obtain ⟨a, b, c⟩ := h
  refine ⟨?_, fun q hq => ?_, ?_⟩
  · rw [← a]; unfold line; rw [k]
  · rw [← b q hq]; unfold line; rw [k]
  · rw [k]; exact c
/-- A line that was set, with whatever else a row changed. -/
theorem lineIs_set {s u : State} {p : Nat} {L : Line} (k : u.port = (setLine s p L).port) : LineIs s (settle u) p L :=
  lineIs (u := setLine s p L) ⟨line_setLine s p L, fun _ h => line_setLine_other s L h, rfl⟩ (by rw [settle_port, k])

end Sys2Proof.Machine
end

