-- ==== Sys2Proof/Laws/Flight.lean ====
section
/-! SUPPORT. What completing an entry or a frame leaves alone, said once: `complete_flight`, `frameGone_flight`,
`portGoesDown_flight`. -/
namespace Sys2Proof.Machine

/-- `t` differs from `s` by what the end of a frame may change; of a port's line that is the breaches kept, the stamp queue's
marks and when a frame to send was last there. -/
structure Flight (s t : State) : Prop where
  un : Untouched flight s t
  ln : ∀ p, line t p = { line s p with breaches := (line t p).breaches, tsq := (line t p).tsq, idleSince := (line t p).idleSince }
  pt : t.port = { s.port with line := t.port.line }
  pd : ∀ g n, Pends s g n → Pends t g n

theorem Flight.refl (s : State) : Flight s s := ⟨Untouched.refl _ _, fun _ => rfl, rfl, fun _ _ h => h⟩
theorem Flight.trans {s t u : State} (h : Flight s t) (k : Flight t u) : Flight s u := by
  refine ⟨h.un.trans k.un, fun p => ?_, ?_, fun g n x => k.pd g n (h.pd g n x)⟩
  · have a := k.ln p; rw [h.ln p] at a; exact a
  · have a := k.pt; rw [h.pt] at a; exact a
/-- A change of parts of `flight` other than the ports. -/
theorem Flight.of {s t : State} (hu : Untouched flight s t) (hp : t.port = s.port) (hd : ∀ g n, Pends s g n → Pends t g n) : Flight s t :=
  ⟨hu, fun p => by unfold line; rw [hp], by rw [hp], hd⟩
theorem Flight.line {s t : State} {p : Nat} {L : Line} (hu : Untouched flight s t)
    (hp : t.port = (setLine s p L).port) (hL : L = { line s p with breaches := L.breaches, tsq := L.tsq, idleSince := L.idleSince })
    (hd : ∀ g n, Pends s g n → Pends t g n) : Flight s t := by
  have e : ∀ q, Machine.line t q = Machine.line (setLine s p L) q := fun q => by unfold Machine.line; rw [hp]
  refine ⟨hu, fun q => ?_, by rw [hp]; rfl, hd⟩
  rw [e q]
  by_cases h : q = p
  · subst h; rw [line_setLine]; exact hL
  · rw [line_setLine_other s L h]
theorem foldl_flight {ι : Type} (f : State → ι → State) (h : ∀ s i, Flight s (f s i)) (l : List ι) (s : State) : Flight s (l.foldl f s) :=
  foldl_rel Flight Flight.refl (fun _ _ _ => Flight.trans) f h l s

theorem un_of {s t : State} (h1 : t.pending = s.pending) (h2 : t.tm = s.tm) (h3 : t.tu = s.tu) (h4 : t.st0 = s.st0) (h5 : t.cr = s.cr)
    (h6 : t.str = s.str) (h7 : t.pc = s.pc) (h8 : t.spr = s.spr) (h9 : t.stn = s.stn) (h10 : t.skn = s.skn) (h11 : t.rx = s.rx)
    (h12 : t.stk = s.stk) (h13 : t.reg = s.reg) (h14 : t.mem = s.mem) (h15 : t.sq = s.sq) (h16 : t.tst = s.tst) : Untouched flight s t := by
  refine ⟨h1, fun p hp => ?_⟩
  cases p
  case memory => intro a; rw [h14]
  case spindle => rw [Part.same, h15]; exact ⟨rfl, rfl, rfl, rfl, rfl, rfl, rfl⟩
  case margins => rw [Part.same, h16]
  case loops => rw [Part.same, h16]; exact ⟨rfl, rfl⟩
  case tests => intro d _; unfold testOf; rw [h16]
  all_goals first | (exfalso; exact hp (by decide)) | assumption

theorem raise_flight (s : State) (g n : Nat) : Flight s (raise s g n) := .of (un_of rfl rfl rfl rfl rfl rfl rfl rfl rfl rfl rfl rfl rfl rfl rfl rfl) rfl fun _ _ h => raise_keeps _ _ _ h
theorem raiseIf_flight (c : Bool) (s : State) (g n : Nat) : Flight s (raiseIf c s g n) := by
  unfold raiseIf; split
  · exact raise_flight s g n
  · exact .refl s
theorem cntPort_flight (s : State) (p i n : Nat) : Flight s (cntPort s p i n) := by
  unfold cntPort; split
  · exact .of (un_of rfl rfl rfl rfl rfl rfl rfl rfl rfl rfl rfl rfl rfl rfl rfl rfl) rfl fun _ _ h => h
  · exact .refl s
theorem cntTime_flight (s : State) (p i n : Nat) : Flight s (cntTime s p i n) := by
  unfold cntTime; dsimp only; split
  · exact .of (un_of rfl rfl rfl rfl rfl rfl rfl rfl rfl rfl rfl rfl rfl rfl rfl rfl) rfl fun _ _ h => h
  · exact .refl s
theorem cntHist_flight (s : State) (p i : Nat) : Flight s (cntHist s p i) := by
  unfold cntHist; split
  · exact .of (un_of rfl rfl rfl rfl rfl rfl rfl rfl rfl rfl rfl rfl rfl rfl rfl rfl) rfl fun _ _ h => h
  · exact .refl s
theorem cntCsi_flight (s : State) (p i n : Nat) : Flight s (cntCsi s p i n) := by
  unfold cntCsi; split
  · exact .of (un_of rfl rfl rfl rfl rfl rfl rfl rfl rfl rfl rfl rfl rfl rfl rfl rfl) rfl fun _ _ h => h
  · exact .refl s
theorem cntBank_flight (s : State) (b i n : Nat) : Flight s (cntBank s b i n) := by
  unfold cntBank; split
  · exact .refl s
  · exact .of (un_of rfl rfl rfl rfl rfl rfl rfl rfl rfl rfl rfl rfl rfl rfl rfl rfl) rfl fun _ _ h => h
theorem setBob_flight (s : State) (b : Nat) (x : Bobbin) : Flight s (setBob s b x) := .of (un_of rfl rfl rfl rfl rfl rfl rfl rfl rfl rfl rfl rfl rfl rfl rfl rfl) rfl fun _ _ h => h
theorem setCt_flight (s : State) (b : Nat) (x : Contract) : Flight s (setCt s b x) := .of (un_of rfl rfl rfl rfl rfl rfl rfl rfl rfl rfl rfl rfl rfl rfl rfl rfl) rfl fun _ _ h => h
theorem bob_flight (s : State) (x) : Flight s { s with bob := x } := .of (un_of rfl rfl rfl rfl rfl rfl rfl rfl rfl rfl rfl rfl rfl rfl rfl rfl) rfl fun _ _ h => h
theorem tx_flight (s : State) (x) : Flight s { s with tx := x } := .of (un_of rfl rfl rfl rfl rfl rfl rfl rfl rfl rfl rfl rfl rfl rfl rfl rfl) rfl fun _ _ h => h
theorem ldAdd_flight (s : State) (o n : Nat) : Flight s (ldAdd s o n) := .of (un_of rfl rfl rfl rfl rfl rfl rfl rfl rfl rfl rfl rfl rfl rfl rfl rfl) rfl fun _ _ h => h
theorem raiseFirst_flight (s : State) (a b g n : Nat) : Flight s (raiseFirst s a b g n) := by
  unfold raiseFirst; split
  · exact .refl s
  · exact .of (un_of rfl rfl rfl rfl rfl rfl rfl rfl rfl rfl rfl rfl rfl rfl rfl rfl) rfl fun _ _ h => raise_keeps _ _ _ h
theorem crumb_flight (s : State) (b i : Nat) : Flight s (crumb s b i) := by
  unfold crumb; dsimp only; split
  · exact .of (un_of rfl rfl rfl rfl rfl rfl rfl rfl rfl rfl rfl rfl rfl rfl rfl rfl) rfl fun _ _ h => raise_keeps _ _ _ h
  · exact setBob_flight s b _
theorem dropRec_flight (s : State) (c : Nat) (f : Bool) : Flight s (dropRec s c f) := by
  unfold dropRec
  try dsimp only
  have k := (cntBank_flight s c 5 1).trans (raise_flight _ (bobGroup c) 5)
  split
  · exact k.trans (crumb_flight _ _ _)
  · exact k
theorem ldWorst_flight (s : State) (m : Int) (n p : Nat) (t : T96) : Flight s (ldWorst s m n p t) := by
  unfold ldWorst
  try dsimp only
  repeat' split
  all_goals first | exact .refl s | exact .of (un_of rfl rfl rfl rfl rfl rfl rfl rfl rfl rfl rfl rfl rfl rfl rfl rfl) rfl fun _ _ h => h
theorem noteResidence_flight (s : State) (rx : Bool) (p n b r : Nat) (t : T96) : Flight s (noteResidence s rx p n b r t) := by
  unfold noteResidence
  try dsimp only
  refine Flight.trans ?_ ((setCt_flight _ _ _).trans (ldWorst_flight _ _ _ _ _))
  split
  · exact cntHist_flight _ _ _
  · exact .refl s
theorem noteLate_flight (s : State) (rx : Bool) (p n : Nat) (k : Option (BitVec 8)) : Flight s (noteLate s rx p n k) := by
  unfold noteLate
  dsimp only
  have h := (setCt_flight s n { contr s n with late := (contr s n).late + 1 }).trans (raiseFirst_flight _ tgLate n 46 2)
  generalize raiseFirst (setCt s n { contr s n with late := (contr s n).late + 1 }) tgLate n 46 2 = u at *
  refine h.trans ?_
  cases k
  · exact (raise_flight _ _ _).trans (ldAdd_flight _ _ _)
  · refine Flight.trans ?_ ((raise_flight _ _ _).trans (ldAdd_flight _ _ _))
    cases rx
    · exact cntPort_flight _ _ _ _
    · exact .refl _
theorem ctSettle_flight (s : State) (n : Nat) : Flight s (ctSettle s n) := by
  unfold ctSettle
  dsimp only
  split
  · exact (setCt_flight _ _ _).trans (raise_flight _ _ _)
  · split
    · exact setCt_flight _ _ _
    · exact .refl s
theorem releaseCells_flight (s : State) (f : TxFrame) : Flight s (releaseCells s f) := by
  unfold releaseCells
  try dsimp only
  split
  · exact setCt_flight _ _ _
  · split
    · exact .refl s
    · exact tx_flight _ _
theorem pruneBreaches_flight (s : State) (p : Nat) : Flight s (pruneBreaches s p) :=
  .line (un_of rfl rfl rfl rfl rfl rfl rfl rfl rfl rfl rfl rfl rfl rfl rfl rfl) rfl rfl fun _ _ h => h
theorem frameGone_flight (s : State) (f : Nat) : Flight s (frameGone s f) := by
  unfold frameGone
  split
  · exact .refl s
  · rename_i f0 _
    dsimp only
    have h := releaseCells_flight s f0
    generalize releaseCells s f0 = u at *
    refine h.trans (Flight.trans ?_ (pruneBreaches_flight _ _))
    split
    · exact (tx_flight u _).trans (ctSettle_flight _ _)
    · exact tx_flight u _
theorem drainCheck_flight (s : State) (b : Nat) : Flight s (drainCheck s b) := by
  unfold drainCheck
  dsimp only
  split
  · exact (setBob_flight _ _ _).trans (raise_flight _ _ _)
  · exact .refl s
theorem notify_flight (s : State) (b : Nat) : Flight s (notify s b) := by
  unfold notify
  try dsimp only
  split
  · exact .of (un_of rfl rfl rfl rfl rfl rfl rfl rfl rfl rfl rfl rfl rfl rfl rfl rfl) rfl fun _ _ h => raise_keeps _ _ _ h
  · exact .refl s
theorem ite_flight {c : Prop} [Decidable c] {s u v : State} (h : Flight s u) (k : Flight s v) : Flight s (if c then u else v) := by
  split
  · exact h
  · exact k
theorem settleSlot_flight (s : State) (e : Issued) : Flight s (settleSlot s e) := by
  unfold settleSlot
  dsimp only
  split
  · exact .refl s
  · exact ite_flight (dropRec_flight _ _ _) (ite_flight ((setBob_flight _ _ _).trans (notify_flight _ _)) (.refl s))
theorem settleSrc_flight (s : State) (b n : Nat) : Flight s (settleSrc s b n) := ite_flight (setBob_flight _ _ _) (.refl s)
theorem settleRec_flight (s : State) (e : Issued) : Flight s (settleRec s e) := by
  obtain ⟨cb, slot, rec_, acked, error⟩ := e
  obtain ⟨src, index, count, bytes, promise, fid⟩ := rec_
  unfold settleRec
  dsimp only
  have h := settleSlot_flight s { cb := cb, slot := slot, record := { src := src, index := index, count := count, bytes := bytes, promise := promise, fid := fid }, acked := acked, error := error }
  generalize settleSlot s { cb := cb, slot := slot, record := { src := src, index := index, count := count, bytes := bytes, promise := promise, fid := fid }, acked := acked, error := error } = u at *
  refine Flight.trans h ?_
  cases src <;> cases fid <;> cases promise <;> dsimp only
  all_goals
    repeat' first
      | with_reducible exact .refl _
      | with_reducible exact settleSrc_flight _ _ _
      | with_reducible refine Flight.trans ?_ (drainCheck_flight _ _)
      | with_reducible refine Flight.trans ?_ (ctSettle_flight _ _)
      | with_reducible refine Flight.trans ?_ (frameGone_flight _ _)
theorem settleIssued_flight (n : Nat) (s : State) : Flight s (settleIssued n s) := by
  induction n generalizing s with
  | zero => exact .refl s
  | succ n ih =>
    unfold settleIssued
    split
    · exact .refl s
    · exact (bob_flight s _).trans ((settleRec_flight _ _).trans (ih _))
theorem rxPromise_flight (s : State) (r : Rec) : Flight s (rxPromise s r).1 := by
  unfold rxPromise
  split
  · rename_i x b _ _
    dsimp only
    have h := setCt_flight s x.contract { contr s x.contract with accepted := (contr s x.contract).accepted + 1 }
    generalize setCt s x.contract { contr s x.contract with accepted := (contr s x.contract).accepted + 1 } = u at *
    refine h.trans ?_
    split
    · exact (noteResidence_flight _ _ _ _ _ _ _).trans (noteLate_flight _ _ _ _ _)
    · exact noteResidence_flight _ _ _ _ _ _ _
  · exact .refl s
theorem issueOne_flight (s : State) (r : Rec) : Flight s (issueOne s r) := by
  have h := rxPromise_flight s r
  unfold issueOne
  generalize rxPromise s r = x at *
  obtain ⟨u, r⟩ := x
  obtain ⟨src, index, count, bytes, promise, fid⟩ := r
  refine h.trans ?_
  dsimp only
  have key : ∀ v : State, ∀ (c : Prop) [Decidable c] (cb : Nat) (b : Bool) (x y), Flight v (if c then { dropRec v cb b with bob := x } else { v with bob := y }) :=
    fun v c _ cb b x y => ite_flight ((dropRec_flight v cb b).trans (bob_flight _ _)) (bob_flight _ _)
  cases src
  · exact key _ _ _ _ _ _
  · generalize codeCrumb (BitVec.ofNat 8 (oct bytes 0)) = k
    cases k
    · exact key _ _ _ _ _ _
    · exact (crumb_flight u _ _).trans (key _ _ _ _ _ _)
theorem issueReady_flight (n : Nat) (s : State) : Flight s (issueReady n s) := by
  induction n generalizing s with
  | zero => exact .refl s
  | succ n ih =>
    unfold issueReady
    split
    · exact .refl s
    · exact (bob_flight s _).trans ((issueOne_flight _ _).trans (ih _))
theorem pump_flight (s : State) : Flight s (pump s) := (issueReady_flight _ _).trans (settleIssued_flight _ _)
theorem dropLost_flight (s : State) (b : Nat) (r : Rec) : Flight s (dropLost s b r) := by
  obtain ⟨src, index, count, bytes, promise, fid⟩ := r
  unfold dropLost
  dsimp only
  have h := dropRec_flight s (bobn s b).completion false
  generalize dropRec s (bobn s b).completion false = u at *
  refine h.trans ?_
  have k : Flight u (match codeCrumb (BitVec.ofNat 8 (oct bytes 0)) with
      | some i => if (bobn u b).st = .stale ∧ isOn u (dBC (b / 32768)) then crumb u b i else u
      | none => u) := by
    split
    · split
      · exact crumb_flight _ _ _
      · exact .refl u
    · exact .refl u
  refine k.trans ?_
  cases fid <;> cases promise
  · exact .refl _
  · exact ctSettle_flight _ _
  · exact frameGone_flight _ _
  · exact (frameGone_flight _ _).trans (ctSettle_flight _ _)
/-- Completing an entry or a frame. -/
theorem complete_flight (s : State) (r : Rec) : Flight s (complete s r) := by
  unfold complete
  split
  · exact ite_flight ((bob_flight _ _).trans (pump_flight _)) (dropLost_flight _ _ _)
  · exact (bob_flight _ _).trans (pump_flight _)

/-! ### Frames that end -/
theorem setFrame_flight (s : State) (f : TxFrame) : Flight s (setFrame s f) := tx_flight _ _
theorem tsqMark_flight (s : State) (p fid : Nat) (g) : Flight s (tsqMark s p fid g) :=
  .line (un_of rfl rfl rfl rfl rfl rfl rfl rfl rfl rfl rfl rfl rfl rfl rfl rfl) rfl rfl fun _ _ h => h
theorem leftUnsent_flight (s : State) (f : TxFrame) : Flight s (leftUnsent s f) :=
  ite_flight (.line (un_of rfl rfl rfl rfl rfl rfl rfl rfl rfl rfl rfl rfl rfl rfl rfl rfl) rfl rfl fun _ _ h => h) (.refl s)
theorem finishFrame_flight (s : State) (f : TxFrame) (r : Rec) : Flight s (finishFrame s f r) := ite_flight (dropLost_flight _ _ _) (complete_flight _ _)
theorem endUnsent_flight (s : State) (f : TxFrame) (k : BitVec 8) : Flight s (endUnsent s f k) := by
  unfold endUnsent
  have h := leftUnsent_flight s f
  dsimp only
  generalize leftUnsent s f = u at *
  refine h.trans ?_
  split
  · exact frameGone_flight _ _
  · exact ((tx_flight u _).trans (setFrame_flight _ _)).trans (finishFrame_flight _ _ _)
theorem stopFrame_flight (s : State) (p fid : Nat) (k : BitVec 8) (b : Bool) : Flight s (stopFrame s p fid k b) := by
  unfold stopFrame
  split
  · exact .refl s
  · rename_i f _
    dsimp only
    have h := (cntPort_flight s p cTX_ABORTED 1).trans (tsqMark_flight _ p fid (fun e => { e with aborted := true }))
    generalize tsqMark (cntPort s p cTX_ABORTED 1) p fid (fun e => { e with aborted := true }) = u at *
    refine h.trans ?_
    cases f.origin with
    | csi n => exact frameGone_flight _ _
    | accepted => exact (noteLate_flight _ _ _ _ _).trans ((setFrame_flight _ _).trans (finishFrame_flight _ _ _))
    | uncontracted => exact (cntPort_flight _ _ _ _).trans ((setFrame_flight _ _).trans (finishFrame_flight _ _ _))
    | demoted => exact (cntPort_flight _ _ _ _).trans ((setFrame_flight _ _).trans (finishFrame_flight _ _ _))
theorem failAccepted_flight (s : State) (p : Nat) (k : BitVec 8) (q : TxFrame → Bool) : Flight s (failAccepted s p k q) :=
  foldl_flight _ (fun _ _ => (noteLate_flight _ _ _ _ _).trans (endUnsent_flight _ _ _)) _ _
theorem csiDiscard_flight (s : State) (p : Nat) : Flight s (csiDiscard s p) := by
  refine foldl_flight _ (fun s f => ?_) _ _
  split
  · exact (cntCsi_flight _ _ _ _).trans (frameGone_flight _ _)
  · exact .refl s

theorem stopAll_flight (s : State) (p : Nat) (k : BitVec 8) : Flight s (stopAll s p k) ∧ Pends (stopAll s p k) p 1 := by
  have hl : Flight s (lpiTime s p) := by
    unfold lpiTime; split
    · exact cntTime_flight _ _ _ _
    · exact .refl s
  have h0 := hl.trans ((cntPort_flight (lpiTime s p) p cLINK_DOWNS 1).trans (raise_flight _ p 1))
  have p0 : Pends (raise (cntPort (lpiTime s p) p cLINK_DOWNS 1) p 1) p 1 := raise_pends _ _ _ (by decide)
  unfold stopAll
  generalize raise (cntPort (lpiTime s p) p cLINK_DOWNS 1) p 1 = u at *
  have h1 : Flight u (stopSent u p k) := by
    unfold stopSent; split
    · exact stopFrame_flight _ _ _ _ _
    · exact cntPort_flight _ _ _ _
    · exact .refl u
  have h2 : Flight (stopSent u p k) (stopSuspended (stopSent u p k) p k) := by
    unfold stopSuspended; split
    · exact stopFrame_flight _ _ _ _ _
    · exact .refl _
  have h3 := (h1.trans h2).trans ((failAccepted_flight _ p k (fun _ => true)).trans (csiDiscard_flight _ p))
  exact ⟨h0.trans h3, h3.pd _ _ p0⟩
/-- A port that goes down: its line stops, its event is pending. -/
theorem portGoesDown_down (s : State) (p : Nat) (k : BitVec 8) (h : (line s p).up = true) :
    Untouched flight s (portGoesDown s p k) ∧ Pends (portGoesDown s p k) p 1 ∧ (line (portGoesDown s p k) p).up = false
    ∧ (line (portGoesDown s p k) p).locked = false ∧ (line (portGoesDown s p k) p).tx = .idle ∧ (line (portGoesDown s p k) p).width = 0 := by
  obtain ⟨f, d⟩ := stopAll_flight s p k
  unfold portGoesDown
  dsimp only
  rw [if_pos h]
  generalize stopAll s p k = u at *
  refine ⟨f.un.trans ?_, d, ?_, ?_, ?_, ?_⟩
  · exact un_of rfl rfl rfl rfl rfl rfl rfl rfl rfl rfl rfl rfl rfl rfl rfl rfl
  all_goals rw [line_setLine]

end Sys2Proof.Machine
end

