-- ==== Sys2Proof/WellFormed.lean ====
section
/-! DEFINITION. Well-formed commands: every number an operand gives lies in the range R7 gives its object. -/
namespace Sys2Proof

/-- A ring command of R275, whose linked group is at most the 64 commands of R283 (65 says: a chain of 64 with LINK). -/
def Cmd.wf (c : Cmd) : Bool := c.ring < 8 && c.group ≤ 65

def StackLink.wf : StackLink → Bool
  | .die i => i < 32
  | .port p => p < 32

/-- Frames of the block's own formats name instances 0 to 31 (R425). -/
def StackHead.wf (h : StackHead) : Bool := h.sender < 32 && h.distaff < 32 && h.hops < 256 && h.state < 8

def GapWork.wf : GapWork → Bool
  | .step r => r < 8
  | .task => true
  | .command op c => op < 256 && c.wf

/-- The stamped bit lies at 0 to 255 of its word (R80), on one of at most 8 lanes. -/
def LaneStamp.wf (x : LaneStamp) : Bool := x.p < 256 && x.lane < 8
def AdmitMsg.wf (m : AdmitMsg) : Bool := m.requester < 32 && m.result < 256

/-- The ranges of R7 for every command. -/
def Instr.wf : Instr → Bool
  | .nop c => c.wf
  | .fence c => c.wf
  | .wait c => c.wf
  | .echo c => c.wf
  | .read c => c.wf
  | .portDefine c => c.wf
  | .portUndefine c => c.wf
  | .portUp c => c.wf
  | .portDown c => c.wf
  | .portSet c => c.wf
  | .portShed c => c.wf
  | .laneMargin c => c.wf
  | .portPlyJoin c => c.wf
  | .portPlySeparate c => c.wf
  | .portTag c => c.wf
  | .bobbinOpen c => c.wf
  | .bobbinClose c => c.wf
  | .bobbinBindSkein c => c.wf
  | .bobbinBindContract c => c.wf
  | .bobbinClearWithdrawn c => c.wf
  | .dataWindowDefine c => c.wf
  | .tenantGrant c => c.wf
  | .bobbinDrain c => c.wf
  | .skeinSet c => c.wf
  | .spreadGroupSet c => c.wf
  | .spreadEntriesWrite c => c.wf
  | .contractAdmit c => c.wf
  | .contractWithdraw c => c.wf
  | .contractQuery c => c.wf
  | .contractAmend c => c.wf
  | .fabRateSet c => c.wf
  | .streamSet c => c.wf
  | .templateWrite c => c.wf
  | .ruleWrite c => c.wf
  | .ruleCommit c => c.wf
  | .ruleRead c => c.wf
  | .tableInsert c => c.wf
  | .tableDelete c => c.wf
  | .tableLookup c => c.wf
  | .tableFlush c => c.wf
  | .tableRehash c => c.wf
  | .tableLearnPort c => c.wf
  | .tableLearnTable c => c.wf
  | .tableAge c => c.wf
  | .timeSet c => c.wf
  | .timeAdjustStep c => c.wf
  | .timeAdjustSlew c => c.wf
  | .timeRate c => c.wf
  | .ppsOutSet c => c.wf
  | .ppsInSet c => c.wf
  | .powerVote c => c.wf
  | .powerUnvote c => c.wf
  | .powerSleep c => c.wf
  | .powerRetain c => c.wf
  | .powerWakesrcSet c => c.wf
  | .powerWakesrcQuery c => c.wf
  | .wakeFrameFilterSet c => c.wf
  | .powerClock c _ => c.wf
  | .checkSet c => c.wf
  | .checkRun c => c.wf
  | .ledgerRead c => c.wf
  | .ledgerFlush c => c.wf
  | .ledgerFlushIntervalSet c => c.wf
  | .ledgerClear c => c.wf
  | .tallyWrite c => c.wf
  | .tallyRead c => c.wf
  | .stackForm c => c.wf
  | .stackJoin c => c.wf
  | .stackElect c => c.wf
  | .stackLeave c => c.wf
  | .selftest c => c.wf
  | .loopback c => c.wf
  | .irqRoute c => c.wf
  | .irqModerate c => c.wf
  | .irqWake c => c.wf
  | .filterSet c => c.wf
  | .sysReset c => c.wf
  | .sysStarter c => c.wf
  | .hostIdxWrite b _ _ => b < 262144
  | .push b _ _ => b < 262144
  | .crEnable r _ _ => r < 8
  | .crDisable r _ _ => r < 8
  | .crPrivWrite r _ _ => r < 8
  | .crSizeWrite r _ => r < 8
  | .crDoorbell r _ _ => r < 8
  | .crCplIdxWrite r _ _ => r < 8
  | .crPush r _ _ => r < 8
  | .resume r => r < 8
  | .tsqPop p _ => p < 32
  | .tuNowRead _ => true
  | .tuPpsCaptureRead _ => true
  | .claim t _ => t < 4
  | .endOfInterrupt t _ _ => t < 4
  | .registerWrite _ _ _ => true
  | .spindleStep _ _ _ => true
  | .boundaryGapFault w => w.wf
  | .t4PendingClear => true
  | .stepStalled _ => true
  | .crRecordAck r _ => r < 8
  | .waitConditionMet r => r < 8
  | .waitTimeout r => r < 8
  | .descriptorFetchDone b _ => b < 262144
  | .poolClaimGranted k => k < 4
  | .frameStaged _ _ => true
  | .calendarSlotBoundary p => p < 32
  | .whorlDecision p => p < 32
  | .preemptionCut p _ => p < 32
  | .txTimeStampPoint p x => p < 32 && x.wf
  | .transmissionEnd p => p < 32
  | .completionRecordAck cb _ _ => cb < 262144
  | .frameReceived p _ x _ _ => p < 32 && x.wf
  | .recirculationPass k _ => k < 4
  | .rxBufferWriteAck _ _ _ => true
  | .csiRxTransfer k => k < 4
  | .csiTxFrame k _ _ => k < 4
  | .learnPortWrite => true
  | .ageSweepVisit => true
  | .holdTick => true
  | .holdSweepVisit => true
  | .redundancySweepVisit stream => stream < 16384
  | .pauseFrameReceived p _ => p < 32
  | .pfcFrameReceived p _ _ => p < 32
  | .classHoldStart p cl => p < 32 && cl < 16
  | .holdTimerExpiry p cl => p < 32 && cl < 16
  | .xoffDelayExpiry p cl => p < 32 && cl < 16
  | .xoffRepeat p cl => p < 32 && cl < 16
  | .linkUp p => p < 32
  | .linkDown p => p < 32
  | .trainingDone lane => lane < 32
  | .trainingFailed lane => lane < 32
  | .trainingRetry p => p < 32
  | .verifyTimerExpiry p => p < 32
  | .respondMpacketReceived p => p < 32
  | .verifyMpacketReceived p => p < 32
  | .fecSecond p _ _ _ _ => p < 32
  | .lpiEntry p => p < 32
  | .lpiWakeEnd p => p < 32
  | .shedWindowEnd p => p < 32
  | .offerTimer p => p < 32
  | .offer p _ => p < 32
  | .request p _ => p < 32
  | .accept p _ => p < 32
  | .decline p _ => p < 32
  | .ready p _ => p < 32
  | .done p _ => p < 32
  | .abort p _ => p < 32
  | .shedProposeTimeout p => p < 32
  | .shedAgreeTimeout p => p < 32
  | .shedAligned p => p < 32
  | .shedSwitchTimeout p => p < 32
  | .realignmentBoundary => true
  | .slewDone => true
  | .refLoss => true
  | .refOk => true
  | .ppsOutRise => true
  | .ppsOutFall => true
  | .ppsInCapture => true
  | .starterTrim => true
  | .gateOpen g => g < 64
  | .evtInAccepted n _ => n < 16
  | .sleepVoteGranted t => t < 4
  | .sleepEntry => true
  | .quiesceDone d => d < 56
  | .saveAndCheckDone => true
  | .regulatorRequestFall d => d < 56
  | .pmPgoodFall d => d < 56
  | .repowerHoldoffEnd d => d < 56
  | .pmPgoodRise d => d < 56
  | .domainOn d _ => d < 56
  | .wakeTimeout d => d < 56
  | .wakeRetry d => d < 56
  | .retentionCheckDone d _ _ => d < 56
  | .pgoodLoss d => d < 56
  | .clockSwitch d => d < 56
  | .wakeEvent _ _ _ => true
  | .linkActivity lane => lane < 32
  | .wakeTimerExpiry => true
  | .powerFailNotice => true
  | .blockReset => true
  | .blockResetRelease => true
  | .coldReset => true
  | .coldResetRelease => true
  | .softResetExit => true
  | .romCheckDone => true
  | .checkRunEnd ch _ => ch < 64
  | .selftestEnd d _ => d < 56
  | .ledgerIntervalFlush => true
  | .ledgerFlushDone _ => true
  | .ledgerSecondSample _ _ => true
  | .heartbeatTick => true
  | .heartbeat l h _ => l.wf && h.wf
  | .reachStale i => i < 32
  | .linkHeartbeatLoss l => l.wf
  | .timeFrameTick => true
  | .time l h _ x _ => l.wf && h.wf && x.wf
  | .upstreamTimeout => true
  | .delayReqTick => true
  | .delayReq l h _ x => l.wf && h.wf && x.wf
  | .delayResp l h _ _ _ x => l.wf && h.wf && x.wf
  | .joinReq l h => l.wf && h.wf
  | .joinAck l h inst _ _ => l.wf && h.wf && inst < 32
  | .admitReq l h m => l.wf && h.wf && m.wf
  | .admitResp l h m => l.wf && h.wf && m.wf
  | .release l h m => l.wf && h.wf && m.wf
  | .admitPendingTimeout _ requester => requester < 32
  | .leave l h => l.wf && h.wf
  | .mergeWindowEnd => true
  | .suspensionEnd ct => ct < 65536
  | .partnerAbsent => true
  | .pcsAlignmentLock p => p < 32
  | .pcsAlignmentLoss p => p < 32
  | .powerFailNoticeWithdrawn => true
  | .pmAckFall d => d < 56
  | .frameDataReadError _ => true
  | .partnerLpiEntry p _ => p < 32
  | .stackResponseTimeout r => r < 8

end Sys2Proof
end

