-- ==== Sys2Proof/Tests/Slice0.lean ====
section
/-! SUPPORT. Tests: worked examples of the spec, ill-formed commands, and for every obligation states and operands that meet the
hypotheses of each of its clauses. -/
open Sys2Proof Sys2Proof.Machine
namespace Sys2Proof.Tests
set_option Elab.async false

/-! ### States of the tests -/
/-- A domain that is ON, on its normal clock. -/
def domOn : Domain := { st := .on, req := true, ack := true, pgood := true }
/-- Operand fields (byte, bit, value). -/
def put (l : List (Nat × Nat × Nat)) : BitVec 192 := BitVec.ofNat 192 (l.foldl (fun a e => a + e.2.2 * 2 ^ (8 * (e.1 - 8) + e.2.1)) 0)
/-- A command of CR0 on object `num` of a kind. -/
def cm (kind num : Nat) (ops : List (Nat × Nat × Nat)) (sub : Nat := 0) : Cmd :=
  { ring := 0, tag := 0x5A5A, obj := BitVec.ofNat 24 (kind * 2 ^ 18 + num), sub := BitVec.ofNat 8 sub, ops := put ops }
/-- An enabled ring with one command posted. -/
def posted (r : Nat) : Ring := { enable := true, state := .running, priv := if r = 0 then 0 else 1, hostIdx := 1 }
/-- The block at work: every domain ON, the edges LIVE, the Spindle released, every ring with one command posted, and window 1
over the fabric addresses from 0x100000 to 0x10FFFF. -/
def w : State := { State.reset with
  tm := { now := 2000000000000, count := 1000000000000 }
  tu := { sec := 7, ns := 5, cycles := 4096, stepped := true }
  pw := { edge := .live, startUp := .done, dom := (List.range 56).map (fun d => (d, domOn)) }
  sq := { released := true }
  ld := { looked := true }
  cr := (List.range 8).map (fun r => (r, posted r))
  bob := { window := [(1, { base := 0x100000, size := 0x10000 })] } }
/-- `s` with ring 0 changed. -/
def ring0 (s : State) (R : Ring) : State := setRing s 0 R
/-- `s` with a port defined and up, of line `L` and settings `S`. -/
def portOn (s : State) (p : Nat) (d : PortDef) (L : Line) (S : PortSet := {}) : State :=
  { s with port := { s.port with defs := [(p, some d)], enabled := BitVec.ofNat 32 (2 ^ p), line := [(p, L)], set := tset {} [] p S } }
/-- A port of two lanes at 224 Gb/s. -/
def p2 : PortDef := { mode := .l224, width := 2, fec := .rs544, mac := 0x010203040506 }
def p8 : PortDef := { p2 with width := 8 }
def lineUp : Line := { up := true, locked := true, training := .done, width := 0 }
/-- Port 12 up, with a skein and two bobbins: 100 transmits on port 12, 200 takes the completions. -/
def wb : State := { portOn w 12 p2 lineUp with
  skn := { tab := [(100, { valid := true, enable := true, port := 12, cls := 10, quantum := 2000 }), (101, { valid := true, enable := true, port := 12, cls := 2, quantum := 2000 })] }
  bob := { w.bob with tab := [(100, { kind := .transmit, st := .opened, sizeLog2 := 3, base := 0x4000, window := 1, completion := 200, skein := 100 }),
                              (200, { kind := .completion, st := .opened, sizeLog2 := 3, base := 0x4010, window := 1 })] } }
/-- `s` with bobbin `b` changed. -/
def withBob (s : State) (b : Nat) (B : Bobbin) : State := setBob s b B
/-- A frame of bobbin 100 that waits in the proof store of port 12. -/
def frm : TxFrame := { id := 7, origin := .uncontracted, bobbin := 100, index := 0, port := 12, skein := 100, cls := 10, len := 100, cells := 2, stage := .staged }
def withFrame (s : State) (f : TxFrame) : State := { s with tx := { s.tx with nextId := 8, frames := [f] } }
/-- A journal entry of ring 0. -/
def ent (op : Nat) (c : Cmd) (cond : Cond := .ready) (stage : Nat := 1) : JEntry := { ring := 0, opcode := op, cmd := c, cond := cond, stage := stage, step := 1 }
def withEntry (s : State) (j : JEntry) : State :=
  ring0 { s with sq := { s.sq with journal := [j] } } { posted 0 with held := !j.task }
/-- A command record that waits for its acknowledgement. -/
def rcd (op : Nat) : CmdRecord := { status := 0x00, opcode := BitVec.ofNat 8 op, tag := 0x5A5A, index := 0, irq := false, result := 3 }
def withRec (x : CmdRecord) : State := ring0 w { posted 0 with record := some x, cplBase := 0x4000 }
/-- A transmit contract of port 12. -/
def img : CtImage := { cls := 10, port := 12, maxFrame := 1522, rate := 1000, burst := 3084, bound := 500 }
/-- Port 12 with FAB_RATE set and contract 40 admitted. -/
def wc : State := { portOn wb 12 p2 lineUp { line := { m := 9600 } } with ct := { tab := [(40, { st := .admitted, img := img })], fabRate := 200000 } }
def ctBig : State := wc
/-- `s` with port 12's line replaced. -/
def withLine (s : State) (L : Line) : State := setLine s 12 L
/-- A record for entry 0 of bobbin 100. -/
def rec0 : Rec := { src := some 100, index := 0, count := 1, bytes := List.replicate 32 1 }
/-- The station table with one entry for the address of the learn request of the tests. -/
def stnWith (s : State) (e : StnEntry) : State :=
  let u := (cands s 3 0x0A0B0C0D0E0F).1.1
  { s with stn := { s.stn with entry := [(8 * u, { e with q := quot 3 0x0A0B0C0D0E0F })] } }
/-- A burnt fuse row of value `v`. -/
def fuseRow (v : Nat) : BitVec 64 := BitVec.ofNat 64 (v + crc8 (le 7 v) * 2 ^ 56)
/-- Instance 2, which may be Distaff, in a stack state. -/
def inst2 (s : State) (k : Stack) : State := { s with ld := { s.ld with fuse := [(72, fuseRow 1), (80, fuseRow 2)] }, stk := k }
/-- Instances 1 to 3 in a stack of generation 5 under Distaff 1, this one in state `st`. -/
def stk (st : StkState) : Stack := { st := st, distaff := 1, gen := 5, members := 0xE, reach := 0xE, ever := 0xE }
def wk (st : StkState) : State := inst2 wb (stk st)
/-- The identification of the tests' stream: VLAN 5, address 01-02-03-04-05-06. -/
def strId : StreamEntry := { histLen := 1, resetMs := 1, idKind := 1, idVid := 5, idAddr := fmac (cm 7 7 [(16, 0, 0x010203040506)]) 16 }
/-- Stream `n` already has that identification. -/
def strTaken (n : Nat) : State := { w with str := { tab := [(n, strId)], slot := [((strSlots (ownKey strId)).1, some n)] } }
/-- Both slots of that identification belong to other streams. -/
def strFull : State := { w with str := { slot := tset none [((strSlots (ownKey strId)).1, some 9)] (strSlots (ownKey strId)).2 (some 10) } }
/-- `s` with bucket `b` full. -/
def fillB (s : State) (b : Nat) : State :=
  { s with stn := { s.stn with entry := (List.range 8).foldl (fun t i => tset {} t (8 * b + i) { valid := true, gen := s.stn.tg, q := 0 }) s.stn.entry } }
/-- `s` with bucket `b` full and the `n` buckets after it on the way of a displacement. -/
def fillWay : Nat → State → Nat → State
  | 0, s, b => fillB s b
  | n + 1, s, b => let t := fillB s b; fillWay n t (otherCand t b 0).1
/-- The two candidate buckets of the tests' address, and those that a displacement would reach, are full. -/
def stnFull : State :=
  let c := cands w 3 0x0A0B0C0D0E0F
  fillWay 4 (fillB w c.2.1) c.1.1
/-- A rehash at its first bucket, whose one entry finds no room under the new seeds. -/
def rehashFull : State :=
  let v := { w with stn := { w.stn with phase := 1, ptr := 1, s1n := 77, s2n := 78, tg := true, entry := [(0, { valid := true, choice := true })] } }
  let k := stnKey v 0 { valid := true, choice := true }
  let c := cands v k.1 k.2
  let t := fillWay 4 (fillB v c.2.1) c.1.1
  { t with stn := { t.stn with ptr := 0 } }
/-- `Starts` as a computation. -/
def startsB (s : State) (op : Nat) (use : Cmd → List (Nat × Nat × Nat)) (c : Cmd) : Bool :=
  c.opcode.isNone && ready s op c && hasRoom (ring s c.ring) c && resetOk s op c && (ring s c.ring).skip.isNone && decide (c.group ≤ 64) && !c.fetchErr &&
  (preCheck s op c).isNone && clean c (use c) && !objectHeld s op c && !needsFailed s (opNeeds s op c) && needsOn s (opNeeds s op c) && s.ic.wakeHit.isNone
theorem starts_iff (s : State) (op : Nat) (use : Cmd → List (Nat × Nat × Nat)) (c : Cmd) : Starts s op use c ↔ startsB s op use c = true := by
  simp only [startsB, Bool.and_eq_true, Option.isNone_iff_eq_none, decide_eq_true_eq, Bool.not_eq_true']
  constructor
  · intro h
    exact ⟨⟨⟨⟨⟨⟨⟨⟨⟨⟨⟨⟨h.own, h.head⟩, h.room⟩, h.others⟩, h.unskipped⟩, h.short⟩, h.fetched⟩, h.checked⟩, h.reserved⟩, h.free⟩, h.alive⟩, h.domains⟩, h.quiet⟩
  · rintro ⟨⟨⟨⟨⟨⟨⟨⟨⟨⟨⟨⟨o, a⟩, b⟩, c⟩, d⟩, e⟩, f⟩, g⟩, h⟩, i⟩, j⟩, k⟩, l⟩
    exact ⟨o, a, b, c, d, e, f, g, h, i, j, k, l⟩

/-- `Takes` as a computation. -/
def takesB (s : State) (acked : BitVec 9) (j : JEntry) : Bool :=
  sqRuns s && !ringTurn s && decide (s.sq.journal.find? (entryReady s acked) = some j) && !j.task && !needsFailed s (entryNeeds s j) && !inTest s j && s.ic.wakeHit.isNone
theorem takes_iff (s : State) (acked : BitVec 9) (j : JEntry) : Takes s acked j ↔ takesB s acked j = true := by
  simp only [takesB, Bool.and_eq_true, Option.isNone_iff_eq_none, decide_eq_true_eq, Bool.not_eq_true']
  exact ⟨fun h => ⟨⟨⟨⟨⟨⟨h.runs, h.turn⟩, h.oldest⟩, h.instruction⟩, h.alive⟩, h.untested⟩, h.quiet⟩, fun ⟨⟨⟨⟨⟨⟨a, b⟩, c⟩, d⟩, e⟩, f⟩, g⟩ => ⟨a, b, c, d, e, f, g⟩⟩

/-! ### Worked examples and published values (the source of each expected value is named) -/

/-- The CRC-32C check value, which chapter 05's hash example and chapter 06's bucket example use. -/
theorem test_crc32c : crc32c 0xFFFFFFFF ((List.range 9).map (fun i => BitVec.ofNat 8 (0x31 + i))) = 0xE3069283 := by decide +kernel
/-- The published check value of CRC-64/XZ, the algorithm of R340. -/
theorem test_crc64 : crc64 ((List.range 9).map (fun i => BitVec.ofNat 8 (0x31 + i))) = 0x995DC9BBDF1939FA := by decide +kernel
/-- The check octet of tally value 1 (chapter 16's example). -/
theorem test_tally_check : crc8 (le 7 1) = 0xDF := by decide +kernel
/-- Chapter 15's example: the CRC-8 of 53 57 32 0F A0. -/
theorem test_check_example : crc8 [0x53, 0x57, 0x32, 0x0F, 0xA0] = 0x5F := by decide +kernel
/-- Chapter 06's example: FID 1,077, address 36-37-38-39-0A-01, seed 0x3132333 give bucket 39,042 of bank ST9. -/
theorem test_bucket : (candsAt { State.reset.stn with s1 := 0x3132333 } 0 0 1077 0x363738390A01).1 = (39042, false) ∧ bankOf 39042 = 9 := by decide +kernel
/-- Chapter 05's example: a spread group of base 2,048 and size 12 sends the hash 0xE3069283 to entry 2,058. -/
theorem test_spread : 2048 + 0xE3069283 * 12 / 2 ^ 32 = 2058 := by decide
/-- Chapter 05's example: with the S-tag removed, the C-tag is skipped and layer 3 begins at 18 with tag depth 2. -/
theorem test_parse : (findL3 [0x8100, 0x88A8] [] 1 (List.replicate 12 0 ++ [0x81, 0, 0, 5, 8, 0] ++ List.replicate 42 0)).base = 18 := by decide +kernel
/-- Chapter 03's example: the one-step Pdelay_Resp carries correctionField 0x08484000 and messageTypeSpecific 0. -/
theorem test_residence :
    let T : OneStep := { enable := true, residence := true, matchOffset := 12, matchValue := 0x88F7, ptpOffset := 14, typeMask := 8 }
    let o : Octets := List.replicate 12 0 ++ [0x88, 0xF7, 3, 2] ++ List.replicate 6 0 ++ [0xFF, 0xFF, 0xFF, 0xFF, 0xFF, 0xFF, 0xC0, 0, 0x3B, 0x9A, 0xC8, 0xF2] ++ List.replicate 32 0
    let r := (oneStepApply T { sec := 8, ns := 1850, frac := 0x8000 } 0 o).1
    oneStepMatch T o ∧ (r.drop 22).take 12 = [0, 0, 0, 0, 8, 0x48, 0x40, 0, 0, 0, 0, 0] := by decide +kernel
/-- Chapter 20's example of the two words that a pop of the time-stamp queue gives. -/
theorem test_tsq_words :
    let e : TsqEntry := { fid := 0, id := 0x42, quality := .locked, oneStep := false, preempted := false, aborted := false, t := { sec := 1700, ns := 123456789, frac := 0x8000 } }
    tsqLo e = 0x075BCD1580000042 ∧ tsqHiOf e = 0x0000000006A48000 := by decide
/-- Chapter 07's example: at HOST_IDX 13 and BLOCK_IDX 5 of 8 entries the write 14 is rejected; from 13, 13 the write 2 posts five. -/
theorem test_indices : prodOk 14 13 5 8 = false ∧ prodOk 2 13 13 8 = true ∧ occOf 2 13 8 = 5 := by decide
/-- Chapter 20's addresses of bobbin 40,001. -/
theorem test_sites : siteOf 0x44E208 = .index 40001 ∧ siteOf 0x24E2080 = .bobPush 40001 ∧ siteOf 0x254E20 = .dom (dBC 1) := by decide
/-- Chapter 20's example: the LATE crumb of bobbin 40,001 is bit 5 of the word at 0x254E20, its summary bit 49 at 0x278048. -/
theorem test_crumb_word :
    let s : State := { w with bob := { tab := [(40001, { kind := .transmit, crumbs := 2 })], notify := [(40001, true)], summary := [(625, true)] } }
    readAt s 0x254E20 0xFF = 0x20 ∧ readAt s 0x278048 0xFF = 0x0002000000000000 ∧ readAt s 0x271388 0xFF = 2 := by decide +kernel
/-- Chapter 20's example: TX_LATE of port 12 stands at 0x2025D8. -/
theorem test_counter_address : readAt (cntPort w 12 59 3) 0x2025D8 0xFF = 3 := by decide +kernel
/-- Chapter 11's example: the bytes of CONTRACT.ADMIT of contract 41. -/
theorem test_command_bytes :
    cmdBytes 0x30 { ring := 1, tag := 6, flags := 9, obj := 0x140029, sub := 0, ops := put [(8, 4, 12), (9, 0, 12), (10, 0, 72), (12, 0, 2000), (16, 0, 184), (20, 0, 125)] }
      = [0x30, 0x09, 6, 0, 0x29, 0, 0x14, 0, 0xC0, 0x0C, 0x48, 0, 0xD0, 7, 0, 0, 0xB8, 0, 0, 0, 0x7D, 0, 0, 0] ++ List.replicate 8 0 := by decide +kernel
/-- The line of chapter 08's two admissions. -/
def admState : State := { portOn w 12 { p2 with mode := .l224 } lineUp { line := { xo := false, m := 9600, fc := .pfc, preempt := .verify, pbDepth := 25, pbFill := 655 } } with
  ct := { tab := [(40, { st := .admitted, img := { cls := 10, port := 12, maxFrame := 1522, rate := 1000, burst := 3084, bound := 500 } })], fabRate := 200000 } }
def img41 : CtImage := { cls := 12, port := 12, maxFrame := 72, rate := 2000, burst := 184, bound := 125 }
/-- Chapter 08: contract 41 is admitted with MARGIN 196, d_fab 131 and 12 cells. -/
theorem test_admit_41 :
    let r := admTest admState (some (41, img41))
    r.reason = 0 ∧ r.margin = 196 ∧ r.dFab = 131 ∧ r.psCells = 12 := by decide +kernel
/-- Chapter 08: contract 42 breaks the bound of contract 41; with one frame of burst the demand test fails at 79. -/
theorem test_refuse_42 :
    let s : State := { admState with ct := { admState.ct with tab := tset {} admState.ct.tab 41 { st := .admitted, img := img41 } } }
    let i : CtImage := { cls := 9, port := 12, maxFrame := 9000, rate := 10000, burst := 18040, bound := 2500 }
    let a := admTest s (some (42, i))
    let b := admTest s (some (42, { i with burst := 9040 }))
    a.reason = 3 ∧ a.failContract = 41 ∧ b.reason = 4 ∧ b.failContract = 41 ∧ b.failT = 79 := by decide +kernel
/-- Chapter 04's example of VECTOR with four bits of history: the outcomes, the last REC and HIST, and the two lost. -/
theorem test_vector :
    let e0 : StreamEntry := { histLen := 4, takeAny := true }
    let run := fun (l : List (BitVec 16)) => l.foldl (fun (a : StreamEntry × List Nat × Nat) q => let r := judgeVector a.1 q; (r.2.1, a.2.1 ++ [r.1], a.2.2 + r.2.2.1)) (e0, [], 0)
    let r := run [100, 100, 102, 101, 101, 105, 106, 108, 113]
    r.2.1 = [1, 2, 1, 1, 2, 1, 1, 1, 3] ∧ r.2.2 = 2 ∧ r.1.recSeq = 108 ∧ r.1.hist = 0b1101 := by decide +kernel

/-- Status and opcode of the record that a ring writes. -/
def recStatus (o : Host.Outcome State Fault Refusal) (r : Nat) : Option (BitVec 8 × BitVec 8) :=
  match o with | .next t => (ring t r).record.map (fun x => (x.status, x.opcode)) | _ => none
/-- R276, check 1: 0x05 is no instruction of R295. -/
theorem test_bad_opcode : recStatus (exec (.nop { cm 0 0 [] with opcode := some 5 }) wb) 0 = some (0x10, 5) := by decide +kernel
/-- R7 and R311: PORT 44 names no object, although P12 is defined. -/
theorem test_skein_port : recStatus (exec (.skeinSet (cm 4 5 [(8, 0, 3), (9, 0, 44), (12, 0, 64)])) wb) 0 = some (0x13, 0x24) := by decide +kernel
/-- R485: a dynamic station entry in starter service. -/
theorem test_insert_starter :
    recStatus (exec (.tableInsert (cm 10 0 [(8, 0, 1), (15, 0, 1)])) { wb with pw := { wb.pw with starter := true } }) 0 = some (0x14, 0x50) := by decide +kernel

/-! ### Well-formedness: for each check an ill-formed command that it refuses -/

def badRing : Cmd := { (cm 0 0 []) with ring := 8 }
theorem test_wf_heads : (Instr.leave (.die 0) { sender := 31 }).wf = true ∧ (Instr.leave (.die 0) { sender := 32 }).wf = false ∧
    (Instr.leave (.die 0) { sender := 0, distaff := 32 }).wf = false ∧ (Instr.leave (.die 0) { sender := 0, hops := 256 }).wf = false ∧
    (Instr.leave (.die 0) { sender := 0, state := 8 }).wf = false := by decide
theorem test_wf_ring : (Instr.nop (cm 0 0 [])).wf = true ∧ (Instr.nop badRing).wf = false ∧ (Instr.read { (cm 0 0 []) with group := 66 }).wf = false := by decide
theorem test_wf_rings : (Instr.crDoorbell 8 0 0xFF).wf = false ∧ (Instr.resume 8).wf = false ∧ (Instr.waitTimeout 8).wf = false ∧ (Instr.stackResponseTimeout 8).wf = false := by decide
theorem test_wf_bobbins : (Instr.hostIdxWrite 262144 0 0xFF).wf = false ∧ (Instr.hostIdxWrite 262143 0 0xFF).wf = true ∧ (Instr.completionRecordAck 262144 0 false).wf = false := by decide
theorem test_wf_ports : (Instr.tsqPop 32 0xFF).wf = false ∧ (Instr.linkUp 31).wf = true ∧ (Instr.linkUp 32).wf = false ∧ (Instr.trainingDone 32).wf = false := by decide
theorem test_wf_classes : (Instr.holdTimerExpiry 0 16).wf = false ∧ (Instr.xoffRepeat 32 0).wf = false ∧ (Instr.redundancySweepVisit 16384).wf = false := by decide
theorem test_wf_hosts : (Instr.claim 4 0xFF).wf = false ∧ (Instr.endOfInterrupt 4 0 0xFF).wf = false ∧ (Instr.sleepVoteGranted 4).wf = false ∧ (Instr.gateOpen 64).wf = false ∧ (Instr.evtInAccepted 16 true).wf = false := by decide
theorem test_wf_slices : (Instr.poolClaimGranted 4).wf = false ∧ (Instr.csiRxTransfer 4).wf = false ∧ (Instr.recirculationPass 4 []).wf = false := by decide
theorem test_wf_domains : (Instr.quiesceDone 56).wf = false ∧ (Instr.clockSwitch 56).wf = false ∧ (Instr.checkRunEnd 64 {}).wf = false ∧ (Instr.suspensionEnd 65536).wf = false := by decide
theorem test_wf_work : (GapWork.step 8).wf = false ∧ (GapWork.command 256 (cm 0 0 [])).wf = false ∧ (GapWork.command 0x20 badRing).wf = false ∧ GapWork.task.wf = true := by decide
theorem test_wf_stack : (StackLink.die 32).wf = false ∧ (StackLink.port 32).wf = false ∧ (Instr.reachStale 32).wf = false := by decide
theorem test_wf_stamp : (Instr.txTimeStampPoint 31 { p := 255, lane := 7 }).wf = true ∧ (Instr.txTimeStampPoint 0 { p := 256 }).wf = false ∧ (Instr.txTimeStampPoint 0 { lane := 8 }).wf = false := by decide
theorem test_wf_admit : (Instr.admitReq (.die 0) { sender := 0 } { requester := 32 }).wf = false ∧ (Instr.admitResp (.die 0) { sender := 0 } { requester := 0, result := 256 }).wf = false := by decide

/-! ### Every hypothesis can be met: one theorem per obligation, a conjunct per clause and boundary value -/
theorem wit_StepRunsTheFrontCommand :
    (let s : State := w; s.pending = []) := by decide +kernel
theorem wit_EveryInstructionIsChecked :
    (let s : State := w; let c : Cmd := cm 0 0 []; Starts s 0x00 useNone c) ∧
    (let s : State := w; let c : Cmd := cm 0 0 [(8,0,0x0F)]; Starts s 0x01 useFence c) ∧
    (let s : State := w; let c : Cmd := cm 0 0 [(8,0,77)]; Starts s 0x03 useEcho c) ∧
    (let s : State := w; let c : Cmd := { cm 0 0 [] with opcode := some 0x05 }; let o := 0x05; c.opcode = some o ∧ listed o.toNat = false ∧ ready s o.toNat c = true ∧ hasRoom (ring s c.ring) c = true ∧ (ring s c.ring).skip = none ∧ c.group ≤ 64 ∧ c.fetchErr = false ∧ s.ic.wakeHit = none) ∧
    (let s : State := w; let c : Cmd := { cm 7 0 [] with opcode := some 0xFF }; let o := 0xFF; c.opcode = some o ∧ listed o.toNat = false ∧ ready s o.toNat c = true ∧ hasRoom (ring s c.ring) c = true ∧ (ring s c.ring).skip = none ∧ c.group ≤ 64 ∧ c.fetchErr = false ∧ s.ic.wakeHit = none) ∧
    (let s : State := ring0 w { posted 0 with hostIdx := 64, sizeLog2 := 7 }; let c : Cmd := { cm 1 12 [] with group := 65, flags := 1 }; let tog : Clocks := {}; let e : InstrRow := ⟨0x11, useNone, c, .portUp c⟩; let op := e.op; let k := e.cmd; e ∈ instructions c tog ∧ k.opcode = none ∧ ready s op k = true ∧ hasRoom (ring s k.ring) k = true ∧ resetOk s op k = true ∧ s.ic.wakeHit = none ∧ (ring s k.ring).left = 0 ∧ 64 < k.group) ∧
    (let s : State := ring0 w { posted 0 with skip := some 0x12, left := 1 }; let c : Cmd := cm 0x0E 1 []; let tog : Clocks := {}; let e : InstrRow := ⟨0x92, useTallyWrite, c, .tallyWrite c⟩; let op := e.op; let k := e.cmd; let x := 0x12; e ∈ instructions c tog ∧ k.opcode = none ∧ ready s op k = true ∧ hasRoom (ring s k.ring) k = true ∧ resetOk s op k = true ∧ s.ic.wakeHit = none ∧ k.group ≤ 64 ∧ (ring s k.ring).skip = some x) ∧
    (let s : State := w; let c : Cmd := { cm 1 12 [] with fetchErr := true }; let tog : Clocks := {}; let e : InstrRow := ⟨0x16, usePortPly, withoutJoin c, .portPlySeparate c⟩; let op := e.op; let k := e.cmd; e ∈ instructions c tog ∧ k.opcode = none ∧ ready s op k = true ∧ hasRoom (ring s k.ring) k = true ∧ resetOk s op k = true ∧ s.ic.wakeHit = none ∧ k.group ≤ 64 ∧ (ring s k.ring).skip = none ∧ k.fetchErr = true) ∧
    (let s : State := w; let c : Cmd := { cm 1 12 [] with flags := 32 }; let tog : Clocks := {}; let e : InstrRow := ⟨0x11, useNone, c, .portUp c⟩; let op := e.op; let k := e.cmd; let x := 0x11; e ∈ instructions c tog ∧ k.opcode = none ∧ ready s op k = true ∧ hasRoom (ring s k.ring) k = true ∧ resetOk s op k = true ∧ s.ic.wakeHit = none ∧ k.group ≤ 64 ∧ (ring s k.ring).skip = none ∧ k.fetchErr = false ∧ preCheck s op k = some x) ∧
    (let s : State := setRing w 0 { posted 0 with priv := 1 }; let c : Cmd := cm 0 0 [(8,0,1)]; let tog : Clocks := {}; let e : InstrRow := ⟨0xF0, useByte8, c, .sysReset c⟩; let op := e.op; let k := e.cmd; let x := 0x12; e ∈ instructions c tog ∧ k.opcode = none ∧ ready s op k = true ∧ hasRoom (ring s k.ring) k = true ∧ resetOk s op k = true ∧ s.ic.wakeHit = none ∧ k.group ≤ 64 ∧ (ring s k.ring).skip = none ∧ k.fetchErr = false ∧ preCheck s op k = some x) ∧
    (let s : State := w; let c : Cmd := cm 1 32 []; let tog : Clocks := {}; let e : InstrRow := ⟨0x11, useNone, c, .portUp c⟩; let op := e.op; let k := e.cmd; let x := 0x13; e ∈ instructions c tog ∧ k.opcode = none ∧ ready s op k = true ∧ hasRoom (ring s k.ring) k = true ∧ resetOk s op k = true ∧ s.ic.wakeHit = none ∧ k.group ≤ 64 ∧ (ring s k.ring).skip = none ∧ k.fetchErr = false ∧ preCheck s op k = some x) ∧
    (let s : State := w; let c : Cmd := cm 1 12 [(8,0,1)]; let tog : Clocks := {}; let e : InstrRow := ⟨0x11, useNone, c, .portUp c⟩; let op := e.op; let k := e.cmd; e ∈ instructions c tog ∧ k.opcode = none ∧ ready s op k = true ∧ hasRoom (ring s k.ring) k = true ∧ resetOk s op k = true ∧ s.ic.wakeHit = none ∧ k.group ≤ 64 ∧ (ring s k.ring).skip = none ∧ k.fetchErr = false ∧ preCheck s op k = none ∧ clean k (e.use k) = false) ∧
    (let s : State := { w with sq := { w.sq with journal := [{ ring := 5, opcode := 0x12, cmd := { cm 1 12 [] with ring := 5 }, cond := .fabric }] } }; let c : Cmd := cm 1 12 []; let tog : Clocks := {}; let e : InstrRow := ⟨0x11, useNone, c, .portUp c⟩; let op := e.op; let k := e.cmd; e ∈ instructions c tog ∧ k.opcode = none ∧ ready s op k = true ∧ hasRoom (ring s k.ring) k = true ∧ resetOk s op k = true ∧ s.ic.wakeHit = none ∧ k.group ≤ 64 ∧ (ring s k.ring).skip = none ∧ k.fetchErr = false ∧ preCheck s op k = none ∧ clean k (e.use k) = true ∧ objectHeld s op k = true ∧ op ≠ 0x92) ∧
    (let s : State := setDom w dSL { st := .failed }; let c : Cmd := cm 1 12 [(8,0,16383)]; let tog : Clocks := {}; let e : InstrRow := ⟨0x13, usePortSet, c, .portSet c⟩; let op := e.op; let k := e.cmd; e ∈ instructions c tog ∧ k.opcode = none ∧ ready s op k = true ∧ hasRoom (ring s k.ring) k = true ∧ resetOk s op k = true ∧ s.ic.wakeHit = none ∧ k.group ≤ 64 ∧ (ring s k.ring).skip = none ∧ k.fetchErr = false ∧ preCheck s op k = none ∧ clean k (e.use k) = true ∧ objectHeld s op k = false ∧ needsFailed s (opNeeds s op k) = true) ∧
    (let s : State := setDom w dSL {}; let c : Cmd := cm 1 12 [(8,0,16383)]; let tog : Clocks := {}; let e : InstrRow := ⟨0x13, usePortSet, c, .portSet c⟩; let op := e.op; let k := e.cmd; e ∈ instructions c tog ∧ k.opcode = none ∧ ready s op k = true ∧ hasRoom (ring s k.ring) k = true ∧ resetOk s op k = true ∧ s.ic.wakeHit = none ∧ k.group ≤ 64 ∧ (ring s k.ring).skip = none ∧ k.fetchErr = false ∧ preCheck s op k = none ∧ clean k (e.use k) = true ∧ objectHeld s op k = false ∧ needsFailed s (opNeeds s op k) = false ∧ needsOn s (opNeeds s op k) = false) ∧
    (let s : State := setDom w dTU {}; let c : Cmd := cm 0x11 0 [(8,0,3)]; let tog : Clocks := {}; let e : InstrRow := ⟨0x63, useTimePps, c, .ppsOutSet c⟩; let op := e.op; let k := e.cmd; e ∈ instructions c tog ∧ k.opcode = none ∧ ready s op k = true ∧ hasRoom (ring s k.ring) k = true ∧ resetOk s op k = true ∧ s.ic.wakeHit = none ∧ k.group ≤ 64 ∧ (ring s k.ring).skip = none ∧ k.fetchErr = false ∧ preCheck s op k = none ∧ clean k (e.use k) = true ∧ objectHeld s op k = false ∧ needsFailed s (opNeeds s op k) = false ∧ needsOn s (opNeeds s op k) = false) := ⟨by simp only [starts_iff]; decide +kernel, by simp only [starts_iff]; decide +kernel, by simp only [starts_iff]; decide +kernel, by decide +kernel, by decide +kernel, by refine ⟨by simp [instructions], ?_⟩; decide +kernel, by refine ⟨by simp [instructions], ?_⟩; decide +kernel, by refine ⟨by simp [instructions], ?_⟩; decide +kernel, by refine ⟨by simp [instructions], ?_⟩; decide +kernel, by refine ⟨by simp [instructions], ?_⟩; decide +kernel, by refine ⟨by simp [instructions], ?_⟩; decide +kernel, by refine ⟨by simp [instructions], ?_⟩; decide +kernel, by refine ⟨by simp [instructions], ?_⟩; decide +kernel, by refine ⟨by simp [instructions], ?_⟩; decide +kernel, by refine ⟨by simp [instructions], ?_⟩; decide +kernel, by refine ⟨by simp [instructions], ?_⟩; decide +kernel⟩
theorem wit_WaitHoldsAndEnds :
    (let s : State := w; let c : Cmd := cm 0 0 [(8,0,1),(12,0,5),(16,0,1000)]; Starts s 0x02 useWait c ∧ waitBad (started s 0x02 c) c = false) ∧
    (let s : State := { ring0 w { posted 0 with state := .waiting, wait := some { cmd := cm 0 0 [(8,0,1),(10,0,0),(12,0,5),(16,0,1000)], openSerial := 0, startCount := 1000000000000, startNow := 1000000000000, index := 0, linked := false } } with tm := { now := 2000000000000, count := 2000000000000 } }; let r := 0; let w := { cmd := cm 0 0 [(8,0,1),(10,0,0),(12,0,5),(16,0,1000)], openSerial := 0, startCount := 1000000000000, startNow := 1000000000000, index := 0, linked := false }; s.ic.wakeHit = none ∧ (ring s r).wait = some w ∧ (fld w.cmd 8 0 8 = 2 → waitBobOk s w.cmd = true) ∧ waitMet s w = true) ∧
    (let s : State := ring0 wb { posted 0 with state := .waiting, wait := some ({ cmd := cm 0 0 [(8,0,2),(10,0,1),(9,0,1),(12,0,5),(16,0,100),(20,0,0)], openSerial := 0, startCount := 1000000000000, startNow := 1000000000000, index := 0, linked := false }) }; let r := 0; let w := { cmd := cm 0 0 [(8,0,2),(10,0,1),(9,0,1),(12,0,5),(16,0,100),(20,0,0)], openSerial := 0, startCount := 1000000000000, startNow := 1000000000000, index := 0, linked := false }; s.ic.wakeHit = none ∧ (ring s r).wait = some w ∧ (fld w.cmd 8 0 8 = 2 → waitBobOk s w.cmd = true) ∧ waitMet s w = true) ∧
    (let s : State := ring0 w { posted 0 with state := .waiting, wait := some ({ cmd := cm 0 0 [(8,0,2),(10,0,1),(9,0,1),(12,0,5),(16,0,100),(20,0,0)], openSerial := 0, startCount := 1000000000000, startNow := 1000000000000, index := 0, linked := false }) }; let r := 0; let w := { cmd := cm 0 0 [(8,0,2),(10,0,1),(9,0,1),(12,0,5),(16,0,100),(20,0,0)], openSerial := 0, startCount := 1000000000000, startNow := 1000000000000, index := 0, linked := false }; s.ic.wakeHit = none ∧ (ring s r).wait = some w ∧ fld w.cmd 8 0 8 = 2 ∧ waitBobOk s w.cmd = false) ∧
    (let s : State := { ring0 w { posted 0 with state := .waiting, wait := some { cmd := cm 0 0 [(8,0,1),(10,0,0),(12,0,5),(16,0,1000)], openSerial := 0, startCount := 1000000000000, startNow := 1000000000000, index := 0, linked := false } } with tm := { now := 2000000000000, count := 2000000000000 } }; let r := 0; let w := { cmd := cm 0 0 [(8,0,1),(10,0,0),(12,0,5),(16,0,1000)], openSerial := 0, startCount := 1000000000000, startNow := 1000000000000, index := 0, linked := false }; s.ic.wakeHit = none ∧ (ring s r).wait = some w ∧ fld w.cmd 12 0 32 ≠ 0 ∧ w.startNow + fld w.cmd 12 0 32 * 1000 ≤ s.tm.now) ∧
    (let s : State := { ring0 w { posted 0 with state := .waiting, wait := some { cmd := cm 0 0 [(8,0,2),(10,0,1),(9,0,1),(12,0,5),(16,0,100),(20,0,0)], openSerial := 0, startCount := 1000000000000, startNow := 1000000000000, index := 0, linked := false } } with tm := { now := 2000000000000, count := 2000000000000 } }; let r := 0; let w := { cmd := cm 0 0 [(8,0,2),(10,0,1),(9,0,1),(12,0,5),(16,0,100),(20,0,0)], openSerial := 0, startCount := 1000000000000, startNow := 1000000000000, index := 0, linked := false }; s.ic.wakeHit = none ∧ (ring s r).wait = some w ∧ fld w.cmd 12 0 32 ≠ 0 ∧ w.startNow + fld w.cmd 12 0 32 * 1000 ≤ s.tm.now) := ⟨by simp only [starts_iff]; decide +kernel, by decide +kernel, by decide +kernel, by decide +kernel, by decide +kernel, by decide +kernel⟩
theorem wit_StepsFaultsAndRecords :
    (let s : State := withEntry wb (ent 0x12 (cm 1 12 []) (.portDrained 12)); let j := ent 0x12 (cm 1 12 []) (.portDrained 12); let acked := 0; s.ic.wakeHit = none ∧ sqRuns s ∧ ringTurn s = false ∧ s.sq.journal.find? (entryReady s acked) = some j ∧ j.task = false ∧ needsFailed s (entryNeeds s j) = false ∧ inTest s j = false) ∧
    (let s : State := setDom (withEntry wb (ent 0x60 (cm 0 0 []) .boundary)) dTU { st := .failed }; let j := ent 0x60 (cm 0 0 []) .boundary; let acked := 0; s.ic.wakeHit = none ∧ sqRuns s ∧ ringTurn s = false ∧ s.sq.journal.find? (entryReady s acked) = some j ∧ j.task = false ∧ needsFailed s (entryNeeds s j) = true ∧ (j.opcode = 0xB0 → objNum j.cmd ≠ dSQ)) ∧
    (let s : State := { withEntry wb (ent 0xB0 (cm 0x0B 16 [(8,0,2)]) (.testEnd 16)) with tst := { dom := [(16, { st := .running, test := 2, ring := 0 })] } }; let j := ent 0xB0 (cm 0x0B 16 [(8,0,2)]) (.testEnd 16); let acked := 1; s.ic.wakeHit = none ∧ sqRuns s ∧ ringTurn s = false ∧ s.sq.journal.find? (entryReady s acked) = some j ∧ needsFailed s (entryNeeds s j) = false ∧ inTest s j = true) ∧
    (let s : State := { withEntry wb { ent 0xB0 (cm 0x0B 16 [(8,0,2)]) (.testEnd 16) with task := true, ring := 8 } with tst := { dom := [(16, { st := .running, test := 2, ring := 8 })] } }; let j := { ent 0xB0 (cm 0x0B 16 [(8,0,2)]) (.testEnd 16) with task := true, ring := 8 }; let acked := 256; s.ic.wakeHit = none ∧ sqRuns s ∧ ringTurn s = false ∧ s.sq.journal.find? (entryReady s acked) = some j ∧ needsFailed s (entryNeeds s j) = false ∧ inTest s j = true) ∧
    (let s : State := { withEntry wb ({ ent 0x1000 (cm 0 0 []) with task := true, ring := 8 }) with pw := { wb.pw with failDue := [16] } }; let j := { ent 0x1000 (cm 0 0 []) with task := true, ring := 8 }; let acked := 0; s.ic.wakeHit = none ∧ sqRuns s ∧ ringTurn s = false ∧ s.sq.journal.find? (entryReady s acked) = some j ∧ j.task = true ∧ inTest s j = false) ∧
    (let s : State := withEntry w (ent 0x16 (cm 1 24 [(8,0,1)]) .ready 2); let j := ent 0x16 (cm 1 24 [(8,0,1)]) .ready 2; let acked := 0; s.ic.wakeHit = none ∧ sqRuns s ∧ ringTurn s = false ∧ s.sq.journal.find? (entryReady s acked) = some j ∧ j.opcode = 0x16 ∧ j.task = false ∧ j.stage = 2 ∧ j.cond = .ready ∧ needsFailed s (entryNeeds s j) = false) ∧
    (let s : State := withEntry w (ent 0x16 (cm 1 24 [(8,0,0)]) .ready 2); let j := ent 0x16 (cm 1 24 [(8,0,0)]) .ready 2; let acked := 0; s.ic.wakeHit = none ∧ sqRuns s ∧ ringTurn s = false ∧ s.sq.journal.find? (entryReady s acked) = some j ∧ j.opcode = 0x16 ∧ j.task = false ∧ j.stage = 2 ∧ j.cond = .ready ∧ needsFailed s (entryNeeds s j) = false) ∧
    (let s : State := withEntry wb (ent 0x12 (cm 1 12 []) (.portDrained 12)); let j := ent 0x12 (cm 1 12 []) (.portDrained 12); let acked := 0; s.ic.wakeHit = none ∧ sqRuns s ∧ ringTurn s = false ∧ s.sq.journal.find? (entryReady s acked) = some j ∧ (j.opcode = 0xB0 → objNum j.cmd ≠ dSQ)) ∧
    (let s : State := withEntry wb ({ ent 0x1000 (cm 0 0 []) with task := true, ring := 8 }); let j := { ent 0x1000 (cm 0 0 []) with task := true, ring := 8 }; let acked := 0; s.ic.wakeHit = none ∧ sqRuns s ∧ ringTurn s = false ∧ s.sq.journal.find? (entryReady s acked) = some j ∧ (j.opcode = 0xB0 → objNum j.cmd ≠ dSQ)) ∧
    (let s : State := withEntry wb (ent 0x12 (cm 1 12 []) (.portDrained 12)); let r := 0; let j := ent 0x12 (cm 1 12 []) (.portDrained 12); s.ic.wakeHit = none ∧ sqRuns s ∧ s.sq.journal.find? (fun e => !e.task && e.ring == r) = some j ∧ (j.opcode = 0xB0 → objNum j.cmd ≠ dSQ)) ∧
    (let s : State := withEntry w ({ ent 0x1000 (cm 0 0 []) with task := true, ring := 8 }); let j := { ent 0x1000 (cm 0 0 []) with task := true, ring := 8 }; s.ic.wakeHit = none ∧ sqRuns s ∧ s.sq.journal.find? (·.task) = some j ∧ (j.opcode = 0xB0 → objNum j.cmd ≠ dSQ)) ∧
    (let s : State := w; let op := 0; let c : Cmd := cm 0 0 []; s.ic.wakeHit = none ∧ sqRuns s ∧ ready s op c ∧ hasRoom (ring s c.ring) c ∧ resetOk s op c) ∧
    (let s : State := withEntry (withFrame wb { frm with origin := .accepted }) (ent 0x12 (cm 1 12 []) (.portDrained 12)); let i := 0; let j := ent 0x12 (cm 1 12 []) (.portDrained 12); s.ic.wakeHit = none ∧ s.sq.journal[i]? = some j ∧ entryReady s 0 j = false ∧ j.stalled = false ∧ j.since + 1000000000 ≤ s.tm.now) ∧
    (let s : State := withRec (rcd 3); let r := 0; let rc := rcd 3; s.ic.wakeHit = none ∧ (ring s r).record = some rc ∧ (ring s r).state ≠ .halted) ∧
    (let s : State := withRec { rcd 3 with irq := true }; let r := 0; let rc := { rcd 3 with irq := true }; s.ic.wakeHit = none ∧ (ring s r).record = some rc ∧ (ring s r).state ≠ .halted ∧ (ring s r).iirRecord = false ∧ ((ring s r).stopping = false ∨ 1 < (ring s r).left) ∧ ¬ (rc.opcode = 0xF0 ∧ rc.status = 0x00)) ∧
    (let s : State := ring0 (withRec (rcd 3)) { ring (withRec (rcd 3)) 0 with left := 2, haltAfter := true, stopping := true }; let r := 0; let rc := rcd 3; s.ic.wakeHit = none ∧ (ring s r).record = some rc ∧ (ring s r).state ≠ .halted ∧ (ring s r).iirRecord = false ∧ ((ring s r).stopping = false ∨ 1 < (ring s r).left) ∧ ¬ (rc.opcode = 0xF0 ∧ rc.status = 0x00)) ∧
    (let s : State := ring0 (withRec (rcd 3)) { ring (withRec (rcd 3)) 0 with left := 1, haltAfter := true }; let r := 0; let rc := rcd 3; s.ic.wakeHit = none ∧ (ring s r).record = some rc ∧ (ring s r).state ≠ .halted ∧ (ring s r).iirRecord = false ∧ ((ring s r).stopping = false ∨ 1 < (ring s r).left) ∧ ¬ (rc.opcode = 0xF0 ∧ rc.status = 0x00)) ∧
    (let s : State := ring0 (withRec (rcd 3)) { ring (withRec (rcd 3)) 0 with left := 1, stopping := true, enable := false }; let r := 0; let rc := rcd 3; s.ic.wakeHit = none ∧ (ring s r).record = some rc ∧ (ring s r).state ≠ .halted ∧ (ring s r).iirRecord = false ∧ (ring s r).stopping = true ∧ (ring s r).left ≤ 1 ∧ ¬ (rc.opcode = 0xF0 ∧ rc.status = 0x00)) ∧
    (let s : State := ring0 (withRec (rcd 3)) { ring (withRec (rcd 3)) 0 with iirRecord := true }; let r := 0; let rc := rcd 3; s.ic.wakeHit = none ∧ (ring s r).record = some rc ∧ (ring s r).state ≠ .halted ∧ (ring s r).iirRecord = true ∧ (ring s r).stopping = false) ∧
    (let s : State := withRec (rcd 0xF0); let r := 0; let rc := rcd 0xF0; s.ic.wakeHit = none ∧ (ring s r).record = some rc ∧ (ring s r).state ≠ .halted ∧ (ring s r).iirRecord = false ∧ rc.opcode = 0xF0 ∧ rc.status = 0x00) := by refine ⟨?_, ?_, ?_, ?_, ?_, ?_, ?_, ?_, ?_, ?_, ?_, ?_, ?_, ?_, ?_, ?_, ?_, ?_, ?_, ?_⟩ <;> decide +kernel
theorem wit_PortDefineAndUndefine :
    (let s : State := w; let c : Cmd := cm 1 12 [(8,0,0),(9,0,2),(10,0,1),(16,0,0x010203040506)]; let m := .l224; let f := .rs544; Starts s 0x10 usePortDefine c ∧ c.sub = 0 ∧ modeOf (fld c 8 0 8) = some m ∧ fecOf (fld c 10 0 8) = some f ∧ defineBad s (objNum c) { mode := m, width := fld c 9 0 8, fec := f, mac := fmac c 16 } = false ∧ (inStarter s = true → starterDefineBad (objNum c) { mode := m, width := fld c 9 0 8, fec := f, mac := fmac c 16 } = false) ∧ ((pdef s (objNum c)).isSome → portNamed s (objNum c) = false) ∧ plyHolds s (objNum c) = false) ∧
    (let s : State := w; let c : Cmd := cm 1 31 [(8,0,4),(9,0,1),(10,0,3),(16,0,0xFFFFFFFFFFFF)]; let m := .l10; let f := .clause74; Starts s 0x10 usePortDefine c ∧ c.sub = 0 ∧ modeOf (fld c 8 0 8) = some m ∧ fecOf (fld c 10 0 8) = some f ∧ defineBad s (objNum c) { mode := m, width := fld c 9 0 8, fec := f, mac := fmac c 16 } = false ∧ (inStarter s = true → starterDefineBad (objNum c) { mode := m, width := fld c 9 0 8, fec := f, mac := fmac c 16 } = false) ∧ ((pdef s (objNum c)).isSome → portNamed s (objNum c) = false) ∧ plyHolds s (objNum c) = false) ∧
    (let s : State := { wb with skn := {}, port := { wb.port with enabled := 0 } }; let c : Cmd := cm 1 12 []; Starts s 0x10 usePortDefine { c with sub := 1 } ∧ (pdef s (objNum c)).isSome ∧ portNamed s (objNum c) = false ∧ plyHolds s (objNum c) = false) ∧
    (let s : State := w; let c : Cmd := cm 1 12 []; Starts s 0x10 usePortDefine { c with sub := 1 } ∧ pdef s (objNum c) = none) := by refine ⟨?_, ?_, ?_, ?_⟩ <;> (simp only [starts_iff]; decide +kernel)
theorem wit_PortUpAndDown :
    (let s : State := { portOn w 12 p2 { } with port := { (portOn w 12 p2 {}).port with enabled := 0 } }; let c : Cmd := cm 1 12 []; let p := objNum c; Starts s 0x11 useNone c ∧ (pdef s p).isSome ∧ isEnabled s p = false ∧ inStarter s = false ∧ (∀ d ∈ portVoteSet s p, isOn s d = true)) ∧
    (let s : State := { ({ portOn w 12 p2 { } with port := { (portOn w 12 p2 {}).port with enabled := 0 } }) with pw := { w.pw with starter := true } }; let c : Cmd := cm 1 12 []; let p := objNum c; let u := { s with port := { s.port with enabled := setBitAt s.port.enabled p true, starterPort := setBitAt s.port.starterPort p true } }; Starts s 0x11 useNone c ∧ (pdef s p).isSome ∧ isEnabled s p = false ∧ inStarter s = true ∧ (∀ d ∈ portVoteSet u p, isOn s d = true)) ∧
    (let s : State := setDom ({ portOn w 12 p2 { } with port := { (portOn w 12 p2 {}).port with enabled := 0 } }) (dPS 2) {}; let c : Cmd := cm 1 12 []; let p := objNum c; Starts s 0x11 useNone c ∧ (pdef s p).isSome ∧ isEnabled s p = false ∧ inStarter s = false ∧ (∀ d ∈ portVoteSet s p, isFailed s d = false) ∧ (∃ d ∈ portVoteSet s p, isOn s d = false)) ∧
    (let s : State := setDom ({ portOn w 12 p2 { } with port := { (portOn w 12 p2 {}).port with enabled := 0 } }) (dPS 2) { st := .failed }; let c : Cmd := cm 1 12 []; let p := objNum c; Starts s 0x11 useNone c ∧ (pdef s p).isSome ∧ isEnabled s p = false ∧ inStarter s = false ∧ (∃ d ∈ portVoteSet s p, isFailed s d = true)) ∧
    (let s : State := portOn w 12 p2 {}; let c : Cmd := cm 1 12 []; let p := objNum c; Starts s 0x11 useNone c ∧ (pdef s p).isSome ∧ isEnabled s p = true) ∧
    (let s : State := portOn w 12 p2 {}; let c : Cmd := cm 1 12 []; let p := objNum c; Starts s 0x12 useNone c ∧ (pdef s p).isSome ∧ isEnabled s p = true ∧ (line s p).up = false ∧ portDrained s p = true) ∧
    (let s : State := portOn w 12 p2 lineUp; let c : Cmd := cm 1 12 []; let p := objNum c; let u := portGoesDown { started s 0x12 c with port := { s.port with downing := setBitAt s.port.downing p true } } p kLATE_LINK_DOWN; Starts s 0x12 useNone c ∧ (pdef s p).isSome ∧ isEnabled s p = true ∧ portDrained u p = true) ∧
    (let s : State := withFrame wb { frm with origin := .accepted }; let c : Cmd := cm 1 12 []; let p := objNum c; let u := portGoesDown { started s 0x12 c with port := { s.port with downing := setBitAt s.port.downing p true } } p kLATE_LINK_DOWN; Starts s 0x12 useNone c ∧ (pdef s p).isSome ∧ isEnabled s p = true ∧ portDrained u p = false) ∧
    (let s : State := { portOn w 12 p2 { } with port := { (portOn w 12 p2 {}).port with enabled := 0 } }; let c : Cmd := cm 1 12 []; let p := objNum c; Starts s 0x12 useNone c ∧ (pdef s p).isSome ∧ isEnabled s p = false) := by refine ⟨?_, ?_, ?_, ?_, ?_, ?_, ?_, ?_, ?_⟩ <;> (simp only [starts_iff]; decide +kernel)
theorem wit_PortSetGroups :
    (let s : State := wb; let c : Cmd := cm 1 12 [(8,0,0x7777777),(14,0,0xFFFF),(16,0,1000000)] 1; let p := objNum c; Starts s 0x13 usePortSet c ∧ (pdef s p).isSome ∧ c.sub = 1 ∧ fld c 16 0 32 ≤ 1000000) ∧
    (let s : State := wb; let c : Cmd := cm 1 12 [(8,0,2),(9,0,15),(10,0,0x12345678)] 2; let p := objNum c; Starts s 0x13 usePortSet c ∧ (pdef s p).isSome ∧ c.sub = 2) ∧
    (let s : State := wb; let c : Cmd := cm 1 12 [(8,0,1),(9,0,254),(12,0,212),(13,0,254)] 4; let p := objNum c; Starts s 0x13 usePortSet c ∧ (pdef s p).isSome ∧ 4 ≤ c.sub.toNat ∧ c.sub.toNat ≤ 7 ∧ fld c 12 0 8 ≤ 212 ∧ fld c 9 0 8 ≤ 254 ∧ fld c 13 0 8 ≤ 254) ∧
    (let s : State := wb; let c : Cmd := cm 1 12 [(8,0,1)] 7; let p := objNum c; Starts s 0x13 usePortSet c ∧ (pdef s p).isSome ∧ 4 ≤ c.sub.toNat ∧ c.sub.toNat ≤ 7 ∧ fld c 12 0 8 ≤ 212 ∧ fld c 9 0 8 ≤ 254 ∧ fld c 13 0 8 ≤ 254) ∧
    (let s : State := wb; let c : Cmd := cm 1 12 [(8,0,1536),(10,0,1000),(12,7,1),(13,0,128),(14,0,1000)]; let p := objNum c; let N := lineSetOf c; Starts s 0x13 usePortSet c ∧ (pdef s p).isSome ∧ c.sub = 0 ∧ lineBad s p c N = false ∧ (N.lpiEn = true → isStackPort s p = false) ∧ (inStarter s = true → N.preempt = .off ∧ N.lpiEn = false ∧ N.xo = false) ∧ lineTerms N = lineTerms (pset s p).line) ∧
    (let s : State := { (wc) with sq := { w.sq with admRun := some { ring := 5, result := {}, left := 3 } } }; let c : Cmd := cm 1 12 [(8,0,16383),(10,0,10),(12,2,2),(13,0,10),(14,0,8),(16,0,1000000)]; let p := objNum c; let N := lineSetOf c; Starts s 0x13 usePortSet c ∧ (pdef s p).isSome ∧ c.sub = 0 ∧ lineBad s p c N = false ∧ (N.lpiEn = true → isStackPort s p = false) ∧ (inStarter s = true → N.preempt = .off ∧ N.lpiEn = false ∧ N.xo = false) ∧ lineTerms N ≠ lineTerms (pset s p).line ∧ admBusy s = true) ∧
    (let s : State := wb; let c : Cmd := cm 1 12 [(8,0,16383),(10,0,10),(12,2,2),(13,0,10),(14,0,8),(16,0,1000000)]; let p := objNum c; let N := lineSetOf c; let u := setPset s p { pset s p with line := N }; let r := admTest u none; Starts s 0x13 usePortSet c ∧ (pdef s p).isSome ∧ c.sub = 0 ∧ lineBad s p c N = false ∧ (N.lpiEn = true → isStackPort s p = false) ∧ (inStarter s = true → N.preempt = .off ∧ N.lpiEn = false ∧ N.xo = false) ∧ lineTerms N ≠ lineTerms (pset s p).line ∧ admBusy s = false ∧ testSteps u none = 1 ∧ r.reason = 0) ∧
    (let s : State := wc; let c : Cmd := cm 1 12 [(8,0,1536),(10,0,10),(12,2,2),(13,0,10),(14,0,8),(16,0,1000000)]; let p := objNum c; let N := lineSetOf c; let u := setPset s p { pset s p with line := N }; let r := admTest u none; Starts s 0x13 usePortSet c ∧ (pdef s p).isSome ∧ c.sub = 0 ∧ lineBad s p c N = false ∧ (N.lpiEn = true → isStackPort s p = false) ∧ (inStarter s = true → N.preempt = .off ∧ N.lpiEn = false ∧ N.xo = false) ∧ lineTerms N ≠ lineTerms (pset s p).line ∧ admBusy s = false ∧ testSteps u none = 1 ∧ r.reason ≠ 0) ∧
    (let s : State := { wc with ct := { wc.ct with tab := (List.range 16).map (fun n => (n, { st := .admitted, img := img })) } }; let c : Cmd := cm 1 12 [(8,0,16383),(10,0,10),(12,2,2),(13,0,10),(14,0,8),(16,0,1000000)]; let p := objNum c; let N := lineSetOf c; let u := setPset s p { pset s p with line := N }; Starts s 0x13 usePortSet c ∧ (pdef s p).isSome ∧ c.sub = 0 ∧ lineBad s p c N = false ∧ (N.lpiEn = true → isStackPort s p = false) ∧ (inStarter s = true → N.preempt = .off ∧ N.lpiEn = false ∧ N.xo = false) ∧ lineTerms N ≠ lineTerms (pset s p).line ∧ admBusy s = false ∧ testSteps u none ≠ 1) ∧
    (let s : State := { (withEntry wb (ent 0x13 (cm 1 12 [(8,0,16383),(10,0,10)]) .ready 8)) with sq := { (withEntry wb (ent 0x13 (cm 1 12 [(8,0,16383),(10,0,10)]) .ready 8)).sq with admRun := some { ring := 0, result := {}, left := 1 } } }; let j : JEntry := ent 0x13 (cm 1 12 [(8,0,16383),(10,0,10)]) .ready 8; let x : AdmRun := { ring := 0, result := {}, left := 1 }; let acked := 0; let p := objNum j.cmd; Takes s acked j ∧ j.opcode = 0x13 ∧ j.cmd.sub = 0 ∧ j.cond = .ready ∧ j.stage = 8 ∧ (pdef s p).isSome ∧ s.sq.admRun = some x ∧ x.left ≤ 1 ∧ x.result.reason = 0) ∧
    (let s : State := { (withEntry wb (ent 0x13 (cm 1 12 [(8,0,16383),(10,0,10)]) .ready 8)) with sq := { (withEntry wb (ent 0x13 (cm 1 12 [(8,0,16383),(10,0,10)]) .ready 8)).sq with admRun := some { ring := 0, result := { reason := 4 }, left := 1 } } }; let j : JEntry := ent 0x13 (cm 1 12 [(8,0,16383),(10,0,10)]) .ready 8; let x : AdmRun := { ring := 0, result := { reason := 4 }, left := 1 }; let acked := 0; let p := objNum j.cmd; Takes s acked j ∧ j.opcode = 0x13 ∧ j.cmd.sub = 0 ∧ j.cond = .ready ∧ j.stage = 8 ∧ (pdef s p).isSome ∧ s.sq.admRun = some x ∧ x.left ≤ 1 ∧ x.result.reason ≠ 0) := ⟨by simp only [starts_iff]; decide +kernel, by simp only [starts_iff]; decide +kernel, by simp only [starts_iff]; decide +kernel, by simp only [starts_iff]; decide +kernel, by simp only [starts_iff]; decide +kernel, by simp only [starts_iff]; decide +kernel, by simp only [starts_iff]; decide +kernel, by simp only [starts_iff]; decide +kernel, by simp only [starts_iff]; decide +kernel, by simp only [takes_iff]; decide +kernel, by simp only [takes_iff]; decide +kernel⟩
theorem wit_PortShedPolicy :
    (let s : State := portOn w 8 p8 lineUp { shed := { mode := 1, hold := 5, low := 6, grow := 7 } }; let c : Cmd := cm 1 8 [(8,0,1),(10,0,0xFFFF),(12,0,255),(13,0,1)]; let P := (pset s (objNum c)).shed; Starts s 0x14 usePortShed c ∧ (pdef s (objNum c)).isSome ∧ shedAble s (objNum c) = true ∧ fld c 8 0 8 ≤ 2 ∧ (fld c 8 0 8 ≠ 0 → inStarter s = false ∧ isStackPort s (objNum c) = false) ∧ (fld c 8 0 8 = 1 → fld c 10 0 16 ≠ 0 ∧ fld c 12 0 8 ≠ 0 ∧ fld c 13 0 8 ≠ 0) ∧ (fld c 8 0 8 = 2 → fld c 9 0 8 = 2 ∨ fld c 9 0 8 = 4 ∨ fld c 9 0 8 = 8) ∧ (P.mode = 0 ↔ fld c 8 0 8 = 0)) ∧
    (let s : State := portOn w 8 p8 lineUp { shed := { mode := 2, width := 8 } }; let c : Cmd := cm 1 8 [(8,0,2),(9,0,2)]; let P := (pset s (objNum c)).shed; Starts s 0x14 usePortShed c ∧ (pdef s (objNum c)).isSome ∧ shedAble s (objNum c) = true ∧ fld c 8 0 8 ≤ 2 ∧ (fld c 8 0 8 ≠ 0 → inStarter s = false ∧ isStackPort s (objNum c) = false) ∧ (fld c 8 0 8 = 1 → fld c 10 0 16 ≠ 0 ∧ fld c 12 0 8 ≠ 0 ∧ fld c 13 0 8 ≠ 0) ∧ (fld c 8 0 8 = 2 → fld c 9 0 8 = 2 ∨ fld c 9 0 8 = 4 ∨ fld c 9 0 8 = 8) ∧ (P.mode = 0 ↔ fld c 8 0 8 = 0)) ∧
    (let s : State := portOn w 8 p8 lineUp; let c : Cmd := cm 1 8 []; let P := (pset s (objNum c)).shed; Starts s 0x14 usePortShed c ∧ (pdef s (objNum c)).isSome ∧ shedAble s (objNum c) = true ∧ fld c 8 0 8 ≤ 2 ∧ (fld c 8 0 8 ≠ 0 → inStarter s = false ∧ isStackPort s (objNum c) = false) ∧ (fld c 8 0 8 = 1 → fld c 10 0 16 ≠ 0 ∧ fld c 12 0 8 ≠ 0 ∧ fld c 13 0 8 ≠ 0) ∧ (fld c 8 0 8 = 2 → fld c 9 0 8 = 2 ∨ fld c 9 0 8 = 4 ∨ fld c 9 0 8 = 8) ∧ (P.mode = 0 ↔ fld c 8 0 8 = 0)) ∧
    (let s : State := { (portOn w 8 p8 lineUp) with sq := { w.sq with admRun := some { ring := 5, result := {}, left := 3 } } }; let c : Cmd := cm 1 8 [(8,0,2),(9,0,2)]; let P := (pset s (objNum c)).shed; Starts s 0x14 usePortShed c ∧ (pdef s (objNum c)).isSome ∧ shedAble s (objNum c) = true ∧ fld c 8 0 8 ≤ 2 ∧ (fld c 8 0 8 ≠ 0 → inStarter s = false ∧ isStackPort s (objNum c) = false) ∧ (fld c 8 0 8 = 1 → fld c 10 0 16 ≠ 0 ∧ fld c 12 0 8 ≠ 0 ∧ fld c 13 0 8 ≠ 0) ∧ (fld c 8 0 8 = 2 → fld c 9 0 8 = 2 ∨ fld c 9 0 8 = 4 ∨ fld c 9 0 8 = 8) ∧ ¬(P.mode = 0 ↔ fld c 8 0 8 = 0) ∧ admBusy s = true) ∧
    (let s : State := portOn w 8 p8 lineUp { shed := { mode := 2, width := 4 } }; let c : Cmd := cm 1 8 []; let P := (pset s (objNum c)).shed; let N : PortSet := { pset s (objNum c) with shed := shedPolicyOf P c }; let u := setPset s (objNum c) N; Starts s 0x14 usePortShed c ∧ (pdef s (objNum c)).isSome ∧ shedAble s (objNum c) = true ∧ fld c 8 0 8 ≤ 2 ∧ (fld c 8 0 8 ≠ 0 → inStarter s = false ∧ isStackPort s (objNum c) = false) ∧ (fld c 8 0 8 = 1 → fld c 10 0 16 ≠ 0 ∧ fld c 12 0 8 ≠ 0 ∧ fld c 13 0 8 ≠ 0) ∧ (fld c 8 0 8 = 2 → fld c 9 0 8 = 2 ∨ fld c 9 0 8 = 4 ∨ fld c 9 0 8 = 8) ∧ ¬(P.mode = 0 ↔ fld c 8 0 8 = 0) ∧ admBusy s = false ∧ testSteps u none = 1 ∧ (admTest u none).reason = 0) ∧
    (let s : State := portOn w 8 p8 lineUp; let c : Cmd := cm 1 8 [(8,0,1),(10,0,1),(12,0,1),(13,0,1)]; let P := (pset s (objNum c)).shed; let N : PortSet := { pset s (objNum c) with shed := shedPolicyOf P c }; let u := setPset s (objNum c) N; Starts s 0x14 usePortShed c ∧ (pdef s (objNum c)).isSome ∧ shedAble s (objNum c) = true ∧ fld c 8 0 8 ≤ 2 ∧ (fld c 8 0 8 ≠ 0 → inStarter s = false ∧ isStackPort s (objNum c) = false) ∧ (fld c 8 0 8 = 1 → fld c 10 0 16 ≠ 0 ∧ fld c 12 0 8 ≠ 0 ∧ fld c 13 0 8 ≠ 0) ∧ (fld c 8 0 8 = 2 → fld c 9 0 8 = 2 ∨ fld c 9 0 8 = 4 ∨ fld c 9 0 8 = 8) ∧ ¬(P.mode = 0 ↔ fld c 8 0 8 = 0) ∧ admBusy s = false ∧ testSteps u none = 1 ∧ (admTest u none).reason = 0) ∧
    (let s : State := { portOn wb 8 p8 lineUp with ct := { tab := [(40, { st := .admitted, img := { img with port := 8 } })], fabRate := 1 } }; let c : Cmd := cm 1 8 [(8,0,2),(9,0,2)]; let P := (pset s (objNum c)).shed; let N : PortSet := { pset s (objNum c) with shed := shedPolicyOf P c }; let u := setPset s (objNum c) N; Starts s 0x14 usePortShed c ∧ (pdef s (objNum c)).isSome ∧ shedAble s (objNum c) = true ∧ fld c 8 0 8 ≤ 2 ∧ (fld c 8 0 8 ≠ 0 → inStarter s = false ∧ isStackPort s (objNum c) = false) ∧ (fld c 8 0 8 = 1 → fld c 10 0 16 ≠ 0 ∧ fld c 12 0 8 ≠ 0 ∧ fld c 13 0 8 ≠ 0) ∧ (fld c 8 0 8 = 2 → fld c 9 0 8 = 2 ∨ fld c 9 0 8 = 4 ∨ fld c 9 0 8 = 8) ∧ ¬(P.mode = 0 ↔ fld c 8 0 8 = 0) ∧ admBusy s = false ∧ testSteps u none = 1 ∧ (admTest u none).reason ≠ 0) ∧
    (let s : State := { ({ portOn wb 8 p8 lineUp with ct := { tab := [(40, { st := .admitted, img := { img with port := 8 } })], fabRate := 200000 } }) with ct := { ({ portOn wb 8 p8 lineUp with ct := { tab := [(40, { st := .admitted, img := { img with port := 8 } })], fabRate := 200000 } }).ct with tab := (List.range 16).map (fun n => (n, { st := .admitted, img := img })) } }; let c : Cmd := cm 1 8 [(8,0,2),(9,0,2)]; let P := (pset s (objNum c)).shed; let N : PortSet := { pset s (objNum c) with shed := shedPolicyOf P c }; let u := setPset s (objNum c) N; Starts s 0x14 usePortShed c ∧ (pdef s (objNum c)).isSome ∧ shedAble s (objNum c) = true ∧ fld c 8 0 8 ≤ 2 ∧ (fld c 8 0 8 ≠ 0 → inStarter s = false ∧ isStackPort s (objNum c) = false) ∧ (fld c 8 0 8 = 1 → fld c 10 0 16 ≠ 0 ∧ fld c 12 0 8 ≠ 0 ∧ fld c 13 0 8 ≠ 0) ∧ (fld c 8 0 8 = 2 → fld c 9 0 8 = 2 ∨ fld c 9 0 8 = 4 ∨ fld c 9 0 8 = 8) ∧ ¬(P.mode = 0 ↔ fld c 8 0 8 = 0) ∧ admBusy s = false ∧ testSteps u none ≠ 1) ∧
    (let s : State := { (withEntry (portOn w 8 p8 lineUp) (ent 0x14 (cm 1 8 [(8,0,1),(10,0,5),(12,0,5),(13,0,1)]) .ready 8)) with sq := { (withEntry (portOn w 8 p8 lineUp) (ent 0x14 (cm 1 8 [(8,0,1),(10,0,5),(12,0,5),(13,0,1)]) .ready 8)).sq with admRun := some { ring := 0, result := {}, left := 1 } } }; let j : JEntry := ent 0x14 (cm 1 8 [(8,0,1),(10,0,5),(12,0,5),(13,0,1)]) .ready 8; let x : AdmRun := { ring := 0, result := {}, left := 1 }; let acked := 0; Takes s acked j ∧ j.opcode = 0x14 ∧ j.cond = .ready ∧ j.stage = 8 ∧ s.sq.admRun = some x ∧ x.left ≤ 1 ∧ x.result.reason = 0) ∧
    (let s : State := { (withEntry (portOn w 8 p8 lineUp) (ent 0x14 (cm 1 8 [(8,0,1),(10,0,5),(12,0,5),(13,0,1)]) .ready 8)) with sq := { (withEntry (portOn w 8 p8 lineUp) (ent 0x14 (cm 1 8 [(8,0,1),(10,0,5),(12,0,5),(13,0,1)]) .ready 8)).sq with admRun := some { ring := 0, result := { reason := 4 }, left := 1 } } }; let j : JEntry := ent 0x14 (cm 1 8 [(8,0,1),(10,0,5),(12,0,5),(13,0,1)]) .ready 8; let x : AdmRun := { ring := 0, result := { reason := 4 }, left := 1 }; let acked := 0; Takes s acked j ∧ j.opcode = 0x14 ∧ j.cond = .ready ∧ j.stage = 8 ∧ s.sq.admRun = some x ∧ x.left ≤ 1 ∧ x.result.reason ≠ 0) := ⟨by simp only [starts_iff]; decide +kernel, by simp only [starts_iff]; decide +kernel, by simp only [starts_iff]; decide +kernel, by simp only [starts_iff]; decide +kernel, by simp only [starts_iff]; decide +kernel, by simp only [starts_iff]; decide +kernel, by simp only [starts_iff]; decide +kernel, by simp only [starts_iff]; decide +kernel, by simp only [takes_iff]; decide +kernel, by simp only [takes_iff]; decide +kernel⟩
theorem wit_LaneMarginAndPortTag :
    (let s : State := wb; let c : Cmd := cm 2 12 [(8,0,1000)]; Starts s 0x15 useLaneMargin c ∧ fld c 8 0 16 ≠ 0 ∧ fld c 8 0 16 ≤ 1000 ∧ marginBusy s (objNum c) = false) ∧
    (let s : State := w; let c : Cmd := cm 2 31 [(8,0,1)]; Starts s 0x15 useLaneMargin c ∧ fld c 8 0 16 ≠ 0 ∧ fld c 8 0 16 ≤ 1000 ∧ marginBusy s (objNum c) = false) ∧
    (let s : State := wb; let c : Cmd := cm 1 12 [(10,0,0x123),(20,0,0),(20,3,0)] 15; Starts s 0x17 usePortTag c ∧ c.sub.toNat < 16 ∧ (∀ i, i < fld c 20 0 2 → fld c (8 + 4 * i) 0 16 ∈ [0x8100, 0x88A8, (pset s (objNum c)).rx.custom.toNat]) ∧ (fld c 20 3 2 = 0 ∨ (strm s (fld c 22 0 14)).genEn = true)) ∧
    (let s : State := portOn w 12 p2 lineUp { rx := { custom := 0x9100 } }; let c : Cmd := cm 1 12 [(8,0,0x88A8),(10,0,0xFFFF),(12,0,0x9100),(14,0,7),(16,0,0x8100),(20,0,3)] 0; Starts s 0x17 usePortTag c ∧ c.sub.toNat < 16 ∧ (∀ i, i < fld c 20 0 2 → fld c (8 + 4 * i) 0 16 ∈ [0x8100, 0x88A8, (pset s (objNum c)).rx.custom.toNat]) ∧ (fld c 20 3 2 = 0 ∨ (strm s (fld c 22 0 14)).genEn = true)) ∧
    (let s : State := wb; let c : Cmd := cm 1 12 [(8,0,1)] 16; Starts s 0x17 usePortTag c ∧ c.sub = 16) ∧
    (let s : State := wb; let c : Cmd := cm 1 12 [(8,0,3),(8,2,1),(9,0,11),(9,4,15)] 17; Starts s 0x17 usePortTag c ∧ c.sub = 17 ∧ (fld c 8 0 2 = 3 → fld c 9 0 4 = 0xA ∨ fld c 9 0 4 = 0xB)) ∧
    (let s : State := wb; let c : Cmd := cm 1 12 [(8,0,1)] 17; Starts s 0x17 usePortTag c ∧ c.sub = 17 ∧ (fld c 8 0 2 = 3 → fld c 9 0 4 = 0xA ∨ fld c 9 0 4 = 0xB)) ∧
    (let s : State := wb; let c : Cmd := cm 1 12 [(8,0,0x88A8)] 18; Starts s 0x17 usePortTag c ∧ c.sub = 18) ∧
    (let s : State := { withEntry wb (ent 0x15 (cm 2 12 [(8,0,1000)]) (.margin 12 1999998000000)) with tst := { margin := [(12, some (1999998000000, 2000000))] } }; let j : JEntry := ent 0x15 (cm 2 12 [(8,0,1000)]) (.margin 12 1999998000000); let t0 : Nat := 1999998000000; let n : Nat := 2000000; let acked := 0; let l := objNum j.cmd; Takes s acked j ∧ j.opcode = 0x15 ∧ j.stage = 1 ∧ j.cond = .margin l t0 ∧ tget none s.tst.margin l = some (t0, n) ∧ t0 + n ≤ s.tm.now) ∧
    (let s : State := { withEntry wb (ent 0x15 (cm 2 12 [(8,0,1000)]) (.margin 12 1999999000000)) with tst := { margin := [(12, some (1999999000000, 2000000))] } }; let j : JEntry := ent 0x15 (cm 2 12 [(8,0,1000)]) (.margin 12 1999999000000); let t0 : Nat := 1999999000000; let n : Nat := 2000000; let acked := 0; let l := objNum j.cmd; Takes s acked j ∧ j.opcode = 0x15 ∧ j.stage = 1 ∧ j.cond = .margin l t0 ∧ tget none s.tst.margin l = some (t0, n) ∧ s.tm.now < t0 + n) := ⟨by simp only [starts_iff]; decide +kernel, by simp only [starts_iff]; decide +kernel, by simp only [starts_iff]; decide +kernel, by simp only [starts_iff]; decide +kernel, by simp only [starts_iff]; decide +kernel, by simp only [starts_iff]; decide +kernel, by simp only [starts_iff]; decide +kernel, by simp only [starts_iff]; decide +kernel, by simp only [takes_iff]; decide +kernel, by simp only [takes_iff]; decide +kernel⟩
theorem wit_BobbinOpenAndClose :
    (let s : State := wb; let c : Cmd := cm 3 101 [(8,0,0x100400),(16,0,1),(17,0,5),(18,0,1),(20,0,200),(24,0,100)]; let b := objNum c; let B := bobn s b; Starts s 0x20 useBobbinOpen c ∧ B.st ≠ .opened ∧ B.st ≠ .draining ∧ fld c 16 0 2 ≠ 0 ∧ 3 ≤ fld c 17 0 8 ∧ fld c 17 0 8 ≤ 15 ∧ fld c 8 0 64 % min 4096 (entrySize (numKind (fld c 16 0 2)) * 2 ^ fld c 17 0 8) = 0 ∧ inWindow s (fld c 18 0 6) (fld c 8 0 64) (entrySize (numKind (fld c 16 0 2)) * 2 ^ fld c 17 0 8) = true ∧ (fld c 16 0 2 ≠ 3 → (bobn s (fld c 20 0 18)).st = .opened ∧ (bobn s (fld c 20 0 18)).kind = .completion ∧ ¬ (s.stn.exportEn = true ∧ s.stn.exportBob = fld c 20 0 18)) ∧ (fld c 16 0 2 = 1 → (skein s (fld c 24 0 12)).valid = true)) ∧
    (let s : State := wb; let c : Cmd := cm 3 262143 [(8,0,0x100000),(16,0,3),(17,0,3),(18,0,1)]; let b := objNum c; let B := bobn s b; Starts s 0x20 useBobbinOpen c ∧ B.st ≠ .opened ∧ B.st ≠ .draining ∧ fld c 16 0 2 ≠ 0 ∧ 3 ≤ fld c 17 0 8 ∧ fld c 17 0 8 ≤ 15 ∧ fld c 8 0 64 % min 4096 (entrySize (numKind (fld c 16 0 2)) * 2 ^ fld c 17 0 8) = 0 ∧ inWindow s (fld c 18 0 6) (fld c 8 0 64) (entrySize (numKind (fld c 16 0 2)) * 2 ^ fld c 17 0 8) = true ∧ (fld c 16 0 2 ≠ 3 → (bobn s (fld c 20 0 18)).st = .opened ∧ (bobn s (fld c 20 0 18)).kind = .completion ∧ ¬ (s.stn.exportEn = true ∧ s.stn.exportBob = fld c 20 0 18)) ∧ (fld c 16 0 2 = 1 → (skein s (fld c 24 0 12)).valid = true)) ∧
    (let s : State := wb; let c : Cmd := cm 3 262143 [(8,0,0x100000),(16,0,2),(17,0,12),(18,0,1),(20,0,200)]; let b := objNum c; let B := bobn s b; Starts s 0x20 useBobbinOpen c ∧ B.st ≠ .opened ∧ B.st ≠ .draining ∧ fld c 16 0 2 ≠ 0 ∧ 3 ≤ fld c 17 0 8 ∧ fld c 17 0 8 ≤ 15 ∧ fld c 8 0 64 % min 4096 (entrySize (numKind (fld c 16 0 2)) * 2 ^ fld c 17 0 8) = 0 ∧ inWindow s (fld c 18 0 6) (fld c 8 0 64) (entrySize (numKind (fld c 16 0 2)) * 2 ^ fld c 17 0 8) = true ∧ (fld c 16 0 2 ≠ 3 → (bobn s (fld c 20 0 18)).st = .opened ∧ (bobn s (fld c 20 0 18)).kind = .completion ∧ ¬ (s.stn.exportEn = true ∧ s.stn.exportBob = fld c 20 0 18)) ∧ (fld c 16 0 2 = 1 → (skein s (fld c 24 0 12)).valid = true)) ∧
    (let s : State := wb; let c : Cmd := cm 3 100 []; let b := objNum c; let B := bobn s b; Starts s 0x21 useNone c ∧ bobClosed B = false ∧ (B.kind = .completion → bobsAny s (fun x X => x != b && X.kind != .completion && X.completion == b) = false) ∧ (B.kind ≠ .completion → (B.st = .opened ∨ B.st = .stale) ∧ bocc B = 0 ∧ bobInFlight s b = false)) ∧
    (let s : State := w; let c : Cmd := cm 3 100 []; let b := objNum c; let B := bobn s b; Starts s 0x21 useNone c ∧ bobClosed B = true) := by refine ⟨?_, ?_, ?_, ?_, ?_⟩ <;> (simp only [starts_iff]; decide +kernel)
theorem wit_BobbinBindForms :
    (let s : State := wb; let c : Cmd := cm 3 100 [(8,0,101)]; let b := objNum c; let B := bobn s b; let K := skein s (fld c 8 0 16); Starts s 0x22 useBobbinBind c ∧ objKind c = 3 ∧ c.sub = 0 ∧ B.st = .opened ∧ B.kind = .transmit ∧ (B.cstate = .bound → K.port = (contr s B.contract).img.port ∧ K.cls = (contr s B.contract).img.cls) ∧ fld c 8 0 16 < 4096 ∧ K.valid = true ∧ bocc B = 0 ∧ bobInFlight s b = false) ∧
    (let s : State := wc; let c : Cmd := cm 3 100 [(8,0,40)]; let b := objNum c; let B := bobn s b; let C := contr s (fld c 8 0 16); let K := skein s B.skein; Starts s 0x22 useBobbinBind { c with sub := 2 } ∧ objKind c = 3 ∧ B.st ≠ .stale ∧ C.st = .admitted ∧ C.bobbin = none ∧ B.cstate ≠ .bound ∧ (C.img.rx = false → B.kind = .transmit ∧ K.valid = true ∧ K.port = C.img.port ∧ K.cls = C.img.cls) ∧ (C.img.rx = true → B.kind = .receive ∧ rxReserve C.img ≤ bsize B) ∧ bocc B = 0 ∧ bobInFlight s b = false) ∧
    (let s : State := withBob wb 100 { bobn wb 100 with cstate := .withdrawn, contract := 41 }; let c : Cmd := cm 3 100 []; let b := objNum c; let B := bobn s b; Starts s 0x22 useBobbinBind { c with sub := 3 } ∧ objKind c = 3 ∧ B.st ≠ .stale ∧ B.cstate ≠ .free ∧ B.cstate ≠ .bound ∧ (contr s B.contract).st = .free) ∧
    (let s : State := wb; let c : Cmd := cm 3 100 []; let b := objNum c; let B := bobn s b; Starts s 0x22 useBobbinBind { c with sub := 3 } ∧ objKind c = 3 ∧ B.st ≠ .stale ∧ B.cstate = .free) := by refine ⟨?_, ?_, ?_, ?_⟩ <;> (simp only [starts_iff]; decide +kernel)
theorem wit_WindowsGrantsSkeinsSpreads :
    (let s : State := w; let c : Cmd := cm 0 0 [(8,0,3),(16,0,0x100000),(24,0,0x1000000)]; let new : Window := { base := fld c 16 0 64, size := fld c 24 0 64 }; Starts s 0x22 useBobbinBind (asObj c 0 0 1) ∧ fld c 16 0 64 % 4096 = 0 ∧ fld c 24 0 64 % 4096 = 0 ∧ fld c 16 0 64 + fld c 24 0 64 ≤ 2 ^ 56 ∧ (window s (fld c 8 0 6) ≠ new → bobsAny s (fun _ B => B.window == fld c 8 0 6) = false)) ∧
    (let s : State := w; let c : Cmd := cm 0 0 [(8,0,63),(16,0,0),(24,0,0x100000000000000)]; let new : Window := { base := fld c 16 0 64, size := fld c 24 0 64 }; Starts s 0x22 useBobbinBind (asObj c 0 0 1) ∧ fld c 16 0 64 % 4096 = 0 ∧ fld c 24 0 64 % 4096 = 0 ∧ fld c 16 0 64 + fld c 24 0 64 ≤ 2 ^ 56 ∧ (window s (fld c 8 0 6) ≠ new → bobsAny s (fun _ B => B.window == fld c 8 0 6) = false)) ∧
    (let s : State := setRing w 2 { posted 2 with priv := 2 }; let c : Cmd := cm 0x10 2 [(8,0,262143),(12,0,1),(16,0,4000),(18,0,96),(20,0,63)]; Starts s 0x22 useBobbinBind (asObj c 0x10 (objNum c) 0) ∧ objNum c < 8 ∧ objNum c ≠ c.ring ∧ (ring s (objNum c)).priv = 2 ∧ fld c 8 0 32 + fld c 12 0 32 ≤ 262144 ∧ fld c 16 0 16 + fld c 18 0 16 ≤ 4096) ∧
    (let s : State := wb; let c : Cmd := cm 4 4095 [(8,0,1),(8,1,1),(9,0,12),(10,0,15),(12,0,64)]; let k := objNum c; let K := skein s k; let same := K.valid = true ∧ K.port = fld c 9 0 8 ∧ K.cls = fld c 10 0 8; Starts s 0x24 useSkeinSet c ∧ fbit c 8 0 = true ∧ fld c 9 0 8 < 32 ∧ (pdef s (fld c 9 0 8)).isSome ∧ fld c 10 0 8 < 16 ∧ 64 ≤ fld c 12 0 16 ∧ (inStarter s = true → fld c 10 0 8 < 8) ∧ (K.valid = true → ¬ same → boundTo s k (fun _ => true) = false) ∧ (K.valid = true → K.enable = true → fbit c 8 1 = false → boundTo s k (fun B => B.cstate != .free) = false)) ∧
    (let s : State := wb; let c : Cmd := cm 4 101 []; let k := objNum c; Starts s 0x24 useSkeinSet c ∧ fbit c 8 0 = false ∧ boundTo s k (fun _ => true) = false ∧ s.ct.tab.any (fun e => e.2.st != .free && e.2.img.demoteEn && e.2.img.demoteSkein == k) = false) ∧
    (let s : State := w; let c : Cmd := cm 6 1023 [(8,0,65535),(10,0,1)]; Starts s 0x25 useSpreadSet c ∧ c.sub = 0 ∧ fld c 10 0 16 ≤ 4096 ∧ fld c 8 0 16 + fld c 10 0 16 ≤ 65536) ∧
    (let s : State := w; let c : Cmd := cm 6 0 [(8,0,0),(10,0,4096)]; Starts s 0x25 useSpreadSet c ∧ c.sub = 0 ∧ fld c 10 0 16 ≤ 4096 ∧ fld c 8 0 16 + fld c 10 0 16 ≤ 65536) ∧
    (let s : State := { w with spr := { group := [(9, { base := 100, size := 4 })] } }; let c : Cmd := cm 6 9 [(8,0,0x100000),(16,0,1),(18,0,3),(20,0,1)]; let g := objNum c; let n := fld c 20 0 32; let k : Cmd := { c with sub := 1 }; Starts s 0x25 useSpreadSet k ∧ n ≠ 0 ∧ fld c 18 0 16 + n ≤ (spreadGroup s g).size ∧ bufOk s c (fld c 8 0 64) (fld c 16 0 8) (4 * n) = true ∧ c.reads = []) ∧
    (let s : State := { w with spr := { group := [(9, { base := 100, size := 4 })] } }; let c : Cmd := { cm 6 9 [(8,0,0x100000),(16,0,1),(18,0,3),(20,0,1)] with reads := [{ error := true }] }; let g := objNum c; let n := fld c 20 0 32; let k : Cmd := { c with sub := 1 }; let r := { error := true }; let l := []; Starts s 0x25 useSpreadSet k ∧ n ≠ 0 ∧ fld c 18 0 16 + n ≤ (spreadGroup s g).size ∧ bufOk s c (fld c 8 0 64) (fld c 16 0 8) (4 * n) = true ∧ c.reads = r :: l ∧ r.error = true) ∧
    (let s : State := { w with spr := { group := [(9, { base := 100, size := 4 })] } }; let c : Cmd := { cm 6 9 [(8,0,0x100000),(16,0,1),(18,0,3),(20,0,1)] with reads := [{ data := [1, 2, 255, 0] }] }; let g := objNum c; let n := fld c 20 0 32; let k : Cmd := { c with sub := 1 }; let r := { data := [1, 2, 255, 0] }; let l := []; let o := (r.data ++ List.replicate (4 * n) 0).take (4 * n); Starts s 0x25 useSpreadSet k ∧ n ≠ 0 ∧ fld c 18 0 16 + n ≤ (spreadGroup s g).size ∧ bufOk s c (fld c 8 0 64) (fld c 16 0 8) (4 * n) = true ∧ c.reads = r :: l ∧ r.error = false ∧ (∃ i, i < n ∧ bits (ofLe (part o (4 * i) 4)) 18 13 ≠ 0)) ∧
    (let s : State := { w with spr := { group := [(9, { base := 100, size := 4 })] } }; let c : Cmd := { cm 6 9 [(8,0,0x100000),(16,0,1),(18,0,3),(20,0,1)] with reads := [{ data := [1, 2, 3, 0] }] }; let g := objNum c; let n := fld c 20 0 32; let k : Cmd := { c with sub := 1 }; let r := { data := [1, 2, 3, 0] }; let l := []; let o := (r.data ++ List.replicate (4 * n) 0).take (4 * n); Starts s 0x25 useSpreadSet k ∧ n ≠ 0 ∧ fld c 18 0 16 + n ≤ (spreadGroup s g).size ∧ bufOk s c (fld c 8 0 64) (fld c 16 0 8) (4 * n) = true ∧ c.reads = r :: l ∧ r.error = false ∧ (∀ i, i < n → bits (ofLe (part o (4 * i) 4)) 18 13 = 0) ∧ n ≤ 512) := by refine ⟨?_, ?_, ?_, ?_, ?_, ?_, ?_, ?_, ?_, ?_, ?_⟩ <;> (simp only [starts_iff]; decide +kernel)
theorem wit_BobbinDrain :
    (let s : State := withFrame (withBob wb 100 { bobn wb 100 with hostIdx := 1, next := 1 }) { frm with stage := .sending }; let c : Cmd := cm 3 100 []; let b := objNum c; Starts s 0x23 useBobbinDrain c ∧ fbit c 8 0 = false ∧ (bobn s b).st = .opened ∧ (bobn s b).kind = .transmit ∧ (bobn s b).next = (bobn s b).hostIdx ∧ s.tx.frames.filter (fun f => f.bobbin == b && waiting f && (f.origin == .uncontracted || f.origin == .demoted)) = [] ∧ bobInFlight s b = true) ∧
    (let s : State := wb; let c : Cmd := cm 3 100 []; let b := objNum c; Starts s 0x23 useBobbinDrain c ∧ fbit c 8 0 = false ∧ (bobn s b).st = .opened ∧ (bobn s b).kind = .transmit ∧ (bobn s b).next = (bobn s b).hostIdx ∧ s.tx.frames.filter (fun f => f.bobbin == b && waiting f && (f.origin == .uncontracted || f.origin == .demoted)) = [] ∧ bobInFlight s b = false ∧ (bobn s b).blockIdx = (bobn s b).hostIdx) ∧
    (let s : State := withBob wb 100 { bobn wb 100 with hostIdx := 3 }; let c : Cmd := cm 3 100 [(8,0,1)]; let b := objNum c; Starts s 0x23 useBobbinDrain c ∧ (bobn s b).kind ≠ .completion ∧ (bobn s b).st = .opened ∧ fbit c 8 0 = true) ∧
    (let s : State := wb; let c : Cmd := cm 3 100 []; let b := objNum c; let u := startDrain (started s 0x23 c) b; Starts s 0x23 useBobbinDrain c ∧ (bobn s b).kind ≠ .completion ∧ (bobn s b).st = .opened ∧ fbit c 8 0 = false ∧ (bobn u b).st ≠ .draining) ∧
    (let s : State := withBob wb 100 { bobn wb 100 with hostIdx := 3 }; let c : Cmd := cm 3 100 []; let b := objNum c; let u := startDrain (started s 0x23 c) b; Starts s 0x23 useBobbinDrain c ∧ (bobn s b).kind ≠ .completion ∧ (bobn s b).st = .opened ∧ fbit c 8 0 = false ∧ (bobn u b).st = .draining) ∧
    (let s : State := withEntry wb (ent 0x23 (cm 3 100 []) (.bobbinDrained 100)); let j : JEntry := ent 0x23 (cm 3 100 []) (.bobbinDrained 100); let acked := 0; Takes s acked j ∧ j.opcode = 0x23 ∧ j.stage = 1 ∧ j.cond = .bobbinDrained (objNum j.cmd)) ∧
    (let s : State := withEntry (withBob wb 100 { bobn wb 100 with st := .stale }) (ent 0x23 (cm 3 100 []) (.bobbinDrained 100)); let j : JEntry := ent 0x23 (cm 3 100 []) (.bobbinDrained 100); let acked := 0; Takes s acked j ∧ j.opcode = 0x23 ∧ j.stage = 1 ∧ j.cond = .bobbinDrained (objNum j.cmd)) := ⟨by simp only [starts_iff]; decide +kernel, by simp only [starts_iff]; decide +kernel, by simp only [starts_iff]; decide +kernel, by simp only [starts_iff]; decide +kernel, by simp only [starts_iff]; decide +kernel, by simp only [takes_iff]; decide +kernel, by simp only [takes_iff]; decide +kernel⟩
theorem wit_TransmitPath :
    (let s : State := withBob wb 100 { bobn wb 100 with hostIdx := 1 }; let b := 100; let r : FabReply := { error := true }; let d := BitVec.ofNat 256 (ofLe (r.data.take 32)); s.ic.wakeHit = none ∧ (bobn s b).st = .opened ∧ (bobn s b).kind = .transmit ∧ (bobn s b).next ≠ (bobn s b).hostIdx ∧ (bobn s b).pushed = [] ∧ bobPowered s b ∧ (r.error ∨ txCheck s b d ≠ none)) ∧
    (let s : State := withBob wb 100 { bobn wb 100 with hostIdx := 1 }; let b := 100; let r : FabReply := { data := le 32 0 }; let d := BitVec.ofNat 256 (ofLe (r.data.take 32)); s.ic.wakeHit = none ∧ (bobn s b).st = .opened ∧ (bobn s b).kind = .transmit ∧ (bobn s b).next ≠ (bobn s b).hostIdx ∧ (bobn s b).pushed = [] ∧ bobPowered s b ∧ (r.error ∨ txCheck s b d ≠ none)) ∧
    (let s : State := withBob wb 100 { bobn wb 100 with hostIdx := 1 }; let b := 100; let r : FabReply := { data := le 32 (0x100000 + 100 * 2 ^ 64) }; let B := bobn s b; let d := BitVec.ofNat 256 (ofLe (r.data.take 32)); s.ic.wakeHit = none ∧ (bobn s b).st = .opened ∧ (bobn s b).kind = .transmit ∧ (bobn s b).next ≠ (bobn s b).hostIdx ∧ (bobn s b).pushed = [] ∧ bobPowered s b ∧ r.error = false ∧ B.cstate = .free ∧ txCheck s b d = none) ∧
    (let s : State := withBob ({ wc with ct := { wc.ct with tab := [(40, { st := .admitted, img := img, bobbin := some 100, tok := 3000, draw0 := 40, draw1 := 40 })] } }) 100 { bobn wb 100 with hostIdx := 1, cstate := .bound, contract := 40 }; let b := 100; let r : FabReply := { data := le 32 (0x100000 + 100 * 2 ^ 64 + 2 ^ 86 + 40 * 2 ^ 144) }; let B := bobn s b; let d := BitVec.ofNat 256 (ofLe (r.data.take 32)); let C := contr s B.contract; let p := skeinPort s B; let len := finished (txProfile s p (dfl d 88 4)) (dataLen d); let late := dbit d 85 && decide (t96n (nowT s) < releaseAt s d); let at_ := if late then s.tm.count + ceilDiv (releaseAt s d - t96n (nowT s)) 65536 else s.tm.count; let K := refill C at_; s.ic.wakeHit = none ∧ (bobn s b).st = .opened ∧ (bobn s b).kind = .transmit ∧ (bobn s b).next ≠ (bobn s b).hostIdx ∧ (bobn s b).pushed = [] ∧ bobPowered s b ∧ r.error = false ∧ B.cstate = .bound ∧ txCheck s b d = none ∧ s.pw.softHold = false ∧ (line s p).up = true ∧ s.port.downing.toNat.testBit p = false ∧ C.suspended = false ∧ len ≤ C.img.maxFrame ∧ cost len ≤ K.tok ∧ C.held + ceilDiv len 64 ≤ (if usable s (dPS (2 * sliceOf p)) then C.draw0 else 0) + (if usable s (dPS (2 * sliceOf p + 1)) then C.draw1 else 0)) ∧
    (let s : State := withLine (withBob ({ wc with ct := { wc.ct with tab := [(40, { st := .admitted, suspended := true, img := img, bobbin := some 100, tok := 3000, draw0 := 40, draw1 := 40 })] } }) 100 { bobn wb 100 with hostIdx := 1, cstate := .bound, contract := 40 }) lineUp; let b := 100; let r : FabReply := { data := le 32 (0x100000 + 100 * 2 ^ 64 + 2 ^ 86 + 40 * 2 ^ 144) }; let B := bobn s b; let d := BitVec.ofNat 256 (ofLe (r.data.take 32)); let C := contr s B.contract; let p := skeinPort s B; s.ic.wakeHit = none ∧ (bobn s b).st = .opened ∧ (bobn s b).kind = .transmit ∧ (bobn s b).next ≠ (bobn s b).hostIdx ∧ (bobn s b).pushed = [] ∧ bobPowered s b ∧ r.error = false ∧ B.cstate ≠ .free ∧ txCheck s b d = none ∧ s.pw.softHold = false ∧ (B.cstate ≠ .bound ∨ (line s p).up = false ∨ s.port.downing.toNat.testBit p = true ∨ C.suspended = true)) ∧
    (let s : State := withBob ({ wc with ct := { wc.ct with tab := [(40, { st := .admitted, img := img, bobbin := some 100, tok := 3000, draw0 := 40, draw1 := 40 })] } }) 100 { bobn wb 100 with hostIdx := 1, cstate := .withdrawn, contract := 40 }; let b := 100; let r : FabReply := { data := le 32 (0x100000 + 100 * 2 ^ 64 + 2 ^ 86 + 40 * 2 ^ 144) }; let B := bobn s b; let d := BitVec.ofNat 256 (ofLe (r.data.take 32)); let C := contr s B.contract; let p := skeinPort s B; s.ic.wakeHit = none ∧ (bobn s b).st = .opened ∧ (bobn s b).kind = .transmit ∧ (bobn s b).next ≠ (bobn s b).hostIdx ∧ (bobn s b).pushed = [] ∧ bobPowered s b ∧ r.error = false ∧ B.cstate ≠ .free ∧ txCheck s b d = none ∧ s.pw.softHold = false ∧ (B.cstate ≠ .bound ∨ (line s p).up = false ∨ s.port.downing.toNat.testBit p = true ∨ C.suspended = true)) ∧
    (let s : State := withLine (withBob ({ wc with ct := { wc.ct with tab := [(40, { st := .admitted, img := img, bobbin := some 100, tok := 3000, draw0 := 40, draw1 := 40 })] } }) 100 { bobn wb 100 with hostIdx := 1, cstate := .bound, contract := 40 }) {}; let b := 100; let r : FabReply := { data := le 32 (0x100000 + 100 * 2 ^ 64 + 2 ^ 86 + 40 * 2 ^ 144) }; let B := bobn s b; let d := BitVec.ofNat 256 (ofLe (r.data.take 32)); let C := contr s B.contract; let p := skeinPort s B; s.ic.wakeHit = none ∧ (bobn s b).st = .opened ∧ (bobn s b).kind = .transmit ∧ (bobn s b).next ≠ (bobn s b).hostIdx ∧ (bobn s b).pushed = [] ∧ bobPowered s b ∧ r.error = false ∧ B.cstate ≠ .free ∧ txCheck s b d = none ∧ s.pw.softHold = false ∧ (B.cstate ≠ .bound ∨ (line s p).up = false ∨ s.port.downing.toNat.testBit p = true ∨ C.suspended = true)) ∧
    (let s : State := { (withBob ({ wc with ct := { wc.ct with tab := [(40, { st := .admitted, img := img, bobbin := some 100, tok := 3000, draw0 := 40, draw1 := 40 })] } }) 100 { bobn wb 100 with hostIdx := 1, cstate := .bound, contract := 40 }) with pw := { w.pw with softHold := true } }; let b := 100; let r : FabReply := { data := le 32 (0x100000 + 100 * 2 ^ 64 + 2 ^ 86 + 40 * 2 ^ 144) }; let B := bobn s b; let d := BitVec.ofNat 256 (ofLe (r.data.take 32)); s.ic.wakeHit = none ∧ (bobn s b).st = .opened ∧ (bobn s b).kind = .transmit ∧ (bobn s b).next ≠ (bobn s b).hostIdx ∧ (bobn s b).pushed = [] ∧ bobPowered s b ∧ r.error = false ∧ B.cstate ≠ .free ∧ txCheck s b d = none ∧ s.pw.softHold = true) ∧
    (let s : State := { (withFrame wb (frm)) with tx := { nextId := 8, frames := [{ frm with stage := .claiming }], claims := [(1, [7])] } }; let k := 1; let fid := 7; let rest := []; let f := { frm with stage := .claiming }; s.ic.wakeHit = none ∧ tget [] s.tx.claims k = fid :: rest ∧ txFrame s fid = some f ∧ f.cells ≤ poolFree s k) ∧
    (let s : State := withFrame wb ({ frm with stage := .reading }); let fid := 7; let f := { frm with stage := .reading }; s.ic.wakeHit = none ∧ txFrame s fid = some f ∧ f.stage = .reading) ∧
    (let s : State := wb; let p := 12; let near := ∃ f ∈ s.tx.frames, f.port = p ∧ f.origin = .accepted ∧ waiting f = true ∧ s.tm.count < f.start ∧ f.start ≤ s.tm.count + 5000; s.ic.wakeHit = none ∧ isOn s (dMS (sliceOf p)) ∧ (line s p).cur < s.tm.count / 8 ∧ ((line s p).lpi = false ∨ ¬ near)) ∧
    (let s : State := withLine wb { lineUp with lpi := true }; let p := 12; let near := ∃ f ∈ s.tx.frames, f.port = p ∧ f.origin = .accepted ∧ waiting f = true ∧ s.tm.count < f.start ∧ f.start ≤ s.tm.count + 5000; s.ic.wakeHit = none ∧ isOn s (dMS (sliceOf p)) ∧ (line s p).cur < s.tm.count / 8 ∧ ((line s p).lpi = false ∨ ¬ near)) ∧
    (let s : State := withLine (withFrame wb ({ frm with origin := .accepted, contract := 40, start := 1000000005000, bound := 4000, stage := .reading })) { lineUp with lpi := true }; let p := 12; let near := ∃ f ∈ s.tx.frames, f.port = p ∧ f.origin = .accepted ∧ waiting f = true ∧ s.tm.count < f.start ∧ f.start ≤ s.tm.count + 5000; s.ic.wakeHit = none ∧ isOn s (dMS (sliceOf p)) ∧ (line s p).cur < s.tm.count / 8 ∧ (line s p).lpi = true ∧ near) ∧
    (let s : State := withLine wb { lineUp with lpi := true, own := [.pause 5] }; let p := 12; let L := line s p; s.ic.wakeHit = none ∧ (line s p).up ∧ (line s p).shed.st ≠ .switching ∧ (line s p).waking = false ∧ s.pw.softHold = false ∧ isOn s (dMS (sliceOf p)) ∧ L.lpi = true ∧ wantsSend s p = true) ∧
    (let s : State := withLine wb { lineUp with own := [.shed (List.replicate 64 1), .pause 5], shed := { doneDue := true } }; let p := 12; let L := line s p; let f := .shed (List.replicate 64 1); let rest := [.pause 5]; s.ic.wakeHit = none ∧ (line s p).up ∧ (line s p).shed.st ≠ .switching ∧ (line s p).waking = false ∧ s.pw.softHold = false ∧ isOn s (dMS (sliceOf p)) ∧ L.lpi = false ∧ L.tx = .idle ∧ L.shed.doneDue = true ∧ L.own = f :: rest ∧ ownReady s p) ∧
    (let s : State := withLine wb { lineUp with respondDue := 2 }; let p := 12; let L := line s p; s.ic.wakeHit = none ∧ (line s p).up ∧ (line s p).shed.st ≠ .switching ∧ (line s p).waking = false ∧ s.pw.softHold = false ∧ isOn s (dMS (sliceOf p)) ∧ L.lpi = false ∧ L.tx = .idle ∧ L.shed.doneDue = false ∧ 0 < L.respondDue) ∧
    (let s : State := withLine wb { lineUp with verifyDue := true }; let p := 12; let L := line s p; s.ic.wakeHit = none ∧ (line s p).up ∧ (line s p).shed.st ≠ .switching ∧ (line s p).waking = false ∧ s.pw.softHold = false ∧ isOn s (dMS (sliceOf p)) ∧ L.lpi = false ∧ L.tx = .idle ∧ L.shed.doneDue = false ∧ L.respondDue = 0 ∧ L.verifyDue = true) ∧
    (let s : State := withLine wb { lineUp with own := [.pause 5] }; let p := 12; let L := line s p; let f := .pause 5; let rest := []; s.ic.wakeHit = none ∧ (line s p).up ∧ (line s p).shed.st ≠ .switching ∧ (line s p).waking = false ∧ s.pw.softHold = false ∧ isOn s (dMS (sliceOf p)) ∧ L.lpi = false ∧ L.tx = .idle ∧ L.shed.doneDue = false ∧ L.respondDue = 0 ∧ L.verifyDue = false ∧ ownReady s p ∧ L.own = f :: rest) ∧
    (let s : State := withLine wb { lineUp with own := [.time (List.replicate 64 3)] }; let p := 12; let L := line s p; let f := .time (List.replicate 64 3); let rest := []; s.ic.wakeHit = none ∧ (line s p).up ∧ (line s p).shed.st ≠ .switching ∧ (line s p).waking = false ∧ s.pw.softHold = false ∧ isOn s (dMS (sliceOf p)) ∧ L.lpi = false ∧ L.tx = .idle ∧ L.shed.doneDue = false ∧ L.respondDue = 0 ∧ L.verifyDue = false ∧ ownReady s p ∧ L.own = f :: rest) ∧
    (let s : State := withFrame wc ({ frm with origin := .accepted, contract := 40, start := 1000000000, bound := 4000, stage := .staged }); let p := 12; let L := line s p; let f := { frm with origin := .accepted, contract := 40, start := 1000000000, bound := 4000, stage := .staged }; s.ic.wakeHit = none ∧ (line s p).up ∧ (line s p).shed.st ≠ .switching ∧ (line s p).waking = false ∧ s.pw.softHold = false ∧ isOn s (dMS (sliceOf p)) ∧ L.lpi = false ∧ L.tx = .idle ∧ L.shed.doneDue = false ∧ L.respondDue = 0 ∧ L.verifyDue = false ∧ (L.own = [] ∨ ownReady s p = false) ∧ (tier2 s p = some f ∨ (tier2 s p = none ∧ tier3 s p = some f) ∨ (tier2 s p = none ∧ tier3 s p = none ∧ L.suspended = none ∧ (drrSelect s p).1 = some f))) ∧
    (let s : State := withFrame wb frm; let p := 12; let L := line s p; let f := frm; s.ic.wakeHit = none ∧ (line s p).up ∧ (line s p).shed.st ≠ .switching ∧ (line s p).waking = false ∧ s.pw.softHold = false ∧ isOn s (dMS (sliceOf p)) ∧ L.lpi = false ∧ L.tx = .idle ∧ L.shed.doneDue = false ∧ L.respondDue = 0 ∧ L.verifyDue = false ∧ (L.own = [] ∨ ownReady s p = false) ∧ (tier2 s p = some f ∨ (tier2 s p = none ∧ tier3 s p = some f) ∨ (tier2 s p = none ∧ tier3 s p = none ∧ L.suspended = none ∧ (drrSelect s p).1 = some f))) ∧
    (let s : State := withLine (withFrame wb ({ frm with cls := 2, stage := .suspended, sent := 60 })) { lineUp with suspended := some 7 }; let p := 12; let L := line s p; let fid := 7; let f := { frm with cls := 2, stage := .suspended, sent := 60 }; s.ic.wakeHit = none ∧ (line s p).up ∧ (line s p).shed.st ≠ .switching ∧ (line s p).waking = false ∧ s.pw.softHold = false ∧ isOn s (dMS (sliceOf p)) ∧ L.lpi = false ∧ L.tx = .idle ∧ L.shed.doneDue = false ∧ L.respondDue = 0 ∧ L.verifyDue = false ∧ (L.own = [] ∨ ownReady s p = false) ∧ tier2 s p = none ∧ tier3 s p = none ∧ L.suspended = some fid ∧ txFrame s fid = some f ∧ notHeld s p f.cls ∧ parked s p f = false) ∧
    (let s : State := { withLine (withFrame wb (frm)) { lineUp with tx := .frame 7, verify := .active } with tx := { nextId := 9, frames := [{ frm with cls := 2, stage := .sending }, { ({ frm with origin := .accepted, contract := 40, start := 1000000000, bound := 4000, stage := .staged }) with id := 8 }] } }; let p := 12; let L := line s p; let fid := 7; s.ic.wakeHit = none ∧ (line s p).up ∧ (line s p).shed.st ≠ .switching ∧ (line s p).waking = false ∧ s.pw.softHold = false ∧ isOn s (dMS (sliceOf p)) ∧ L.lpi = false ∧ L.tx = .frame fid ∧ preemptable s fid ∧ preemptActive s p ∧ ((tier2 s p).isSome ∨ (tier3 s p).isSome) ∧ L.cutAsked = false) ∧
    (let s : State := withLine (withFrame wb ({ frm with cls := 2, len := 200, cells := 4, stage := .sending, stampDone := true })) { lineUp with tx := .frame 7, verify := .active, cutAsked := true, txAt := 1999999999000, cutAt := 1999999999002 }; let p := 12; let sent := 136; let fid := 7; let f := { frm with cls := 2, len := 200, cells := 4, stage := .sending, stampDone := true }; s.ic.wakeHit = none ∧ (line s p).tx = .frame fid ∧ txFrame s fid = some f ∧ (line s p).cutAsked ∧ f.stampDone ∧ f.cls < 8 ∧ preemptActive s p ∧ cutPlace s p sent f ∧ sent + 64 ≤ f.len) ∧
    (let s : State := withLine (withFrame wb ({ frm with cls := 7, len := 124, cells := 2, stage := .sending, stampDone := true })) { lineUp with tx := .frame 7, verify := .active, cutAsked := true, txAt := 1999999999000, cutAt := 1999999999000 }; let p := 12; let sent := 60; let fid := 7; let f := { frm with cls := 7, len := 124, cells := 2, stage := .sending, stampDone := true }; s.ic.wakeHit = none ∧ (line s p).tx = .frame fid ∧ txFrame s fid = some f ∧ (line s p).cutAsked ∧ f.stampDone ∧ f.cls < 8 ∧ preemptActive s p ∧ cutPlace s p sent f ∧ sent + 64 ≤ f.len) ∧
    (let s : State := withLine (withFrame wb ({ frm with stage := .sending })) { lineUp with tx := .frame 7 }; let p := 12; let fid := 7; let f := { frm with stage := .sending }; s.ic.wakeHit = none ∧ (line s p).tx = .frame fid ∧ txFrame s fid = some f ∧ f.stampDone = false ∧ (line s p).txAt ≤ s.tm.now) ∧
    (let s : State := withLine (withFrame wb ({ frm with origin := .accepted, contract := 40, start := 1000000000, bound := 4000, stage := .sending })) { lineUp with tx := .frame 7 }; let p := 12; let fid := 7; let f := { frm with origin := .accepted, contract := 40, start := 1000000000, bound := 4000, stage := .sending }; s.ic.wakeHit = none ∧ (line s p).tx = .frame fid ∧ txFrame s fid = some f ∧ f.stampDone = false ∧ (line s p).txAt ≤ s.tm.now) ∧
    (let s : State := withLine wb { lineUp with tx := .own (.pause 5) }; let p := 12; let f := .pause 5; s.ic.wakeHit = none ∧ (line s p).tx = .own f ∧ (line s p).pointDone = false ∧ (line s p).txAt ≤ s.tm.now) ∧
    (let s : State := withLine wb { lineUp with tx := .own (.time (List.replicate 64 3)) }; let p := 12; let f := .time (List.replicate 64 3); s.ic.wakeHit = none ∧ (line s p).tx = .own f ∧ (line s p).pointDone = false ∧ (line s p).txAt ≤ s.tm.now) ∧
    (let s : State := withLine (withFrame wb ({ frm with stage := .sending, stampDone := true })) { lineUp with tx := .frame 7 }; let p := 12; s.ic.wakeHit = none ∧ (line s p).tx ≠ .idle ∧ (line s p).txEnd ≤ s.tm.now ∧ pointPassed s p) ∧
    (let s : State := withLine (withFrame wb ({ frm with stage := .sending })) { lineUp with tx := .own (.pause 1), pointDone := true }; let p := 12; s.ic.wakeHit = none ∧ (line s p).tx ≠ .idle ∧ (line s p).txEnd ≤ s.tm.now ∧ pointPassed s p) ∧
    (let s : State := withLine (withFrame wb ({ frm with stage := .sending })) { lineUp with tx := .mpacket true }; let p := 12; s.ic.wakeHit = none ∧ (line s p).tx ≠ .idle ∧ (line s p).txEnd ≤ s.tm.now ∧ pointPassed s p) ∧
    (let s : State := { wb with bob := { wb.bob with issued := [{ cb := 200, slot := some 0, record := rec0 }] } }; let cb := 200; let slot := 0; let e := { cb := 200, slot := some 0, record := rec0 }; s.ic.wakeHit = none ∧ s.bob.issued.find? (fun e => e.cb == cb && e.slot == some slot && !e.acked) = some e) ∧
    (let s : State := { wb with bob := { wb.bob with issued := [{ cb := 200, slot := some 9, record := rec0 }] } }; let cb := 200; let slot := 9; let e := { cb := 200, slot := some 9, record := rec0 }; s.ic.wakeHit = none ∧ s.bob.issued.find? (fun e => e.cb == cb && e.slot == some slot && !e.acked) = some e) ∧
    (let s : State := withFrame wb ({ frm with stage := .reading }); let fid := 7; let f := { frm with stage := .reading }; s.ic.wakeHit = none ∧ txFrame s fid = some f ∧ f.stage = .reading) := by refine ⟨?_, ?_, ?_, ?_, ?_, ?_, ?_, ?_, ?_, ?_, ?_, ?_, ?_, ?_, ?_, ?_, ?_, ?_, ?_, ?_, ?_, ?_, ?_, ?_, ?_, ?_, ?_, ?_, ?_, ?_, ?_, ?_, ?_, ?_, ?_⟩ <;> decide +kernel
theorem wit_ReceivePath :
    (let s : State := wb; let p := 12; let o := List.replicate 63 1; let asm := { badSmd := true }; s.ic.wakeHit = none ∧ rxOn s p ∧ echoRx s p (.frame o asm) = true ∧ asm.badSmd = true) ∧
    (let s : State := { withLine wb { lineUp with echo := [.frame (List.replicate 63 1) { badSmd := true }] } with tst := { loop := [(12, 1)] } }; let p := 12; let o := List.replicate 63 1; let asm := { badSmd := true }; s.ic.wakeHit = none ∧ rxOn s p ∧ echoRx s p (.frame o asm) = true ∧ asm.badSmd = true) ∧
    (let s : State := wb; let p := 12; let o := List.replicate 63 1; let asm := { fragments := 3, failed := true }; s.ic.wakeHit = none ∧ rxOn s p ∧ echoRx s p (.frame o asm) = true ∧ asm.badSmd = false ∧ asm.failed = true) ∧
    (let s : State := wb; let p := 12; let o := List.replicate 17 1; let bad := o.drop (o.length - 4) != fcsOf (o.take (o.length - 4)); s.ic.wakeHit = none ∧ rxOn s p ∧ echoRx s p (.frame o {}) = true ∧ o.length ≤ (pset s p).line.m ∧ (o.length < 18 ∨ (o.length < 64 ∧ bad))) ∧
    (let s : State := wb; let p := 12; let o := List.replicate 63 1; let bad := o.drop (o.length - 4) != fcsOf (o.take (o.length - 4)); s.ic.wakeHit = none ∧ rxOn s p ∧ echoRx s p (.frame o {}) = true ∧ o.length ≤ (pset s p).line.m ∧ (o.length < 18 ∨ (o.length < 64 ∧ bad))) ∧
    (let s : State := wb; let p := 12; let o := (be 6 0x010203040506 ++ List.replicate 58 7); let bad := o.drop (o.length - 4) != fcsOf (o.take (o.length - 4)); s.ic.wakeHit = none ∧ rxOn s p ∧ echoRx s p (.frame o {}) = true ∧ o.length ≤ (pset s p).line.m ∧ 64 ≤ o.length ∧ bad ∧ (pset s p).line.fcsPass = false) ∧
    (let s : State := wb; let p := 12; let o := (let o := be 6 0x010203040506 ++ be 6 0x0A0B0C0D0E0F ++ be 2 0x1234 ++ List.replicate 46 7; o ++ fcsOf o); let bad := o.drop (o.length - 4) != fcsOf (o.take (o.length - 4)); s.ic.wakeHit = none ∧ rxOn s p ∧ echoRx s p (.frame o {}) = true ∧ o.length ≤ (pset s p).line.m ∧ 64 ≤ o.length ∧ bad = false ∧ octBe o 12 2 ≠ 0x8808 ∧ octBe o 12 2 ≠ 0x88B5 ∧ (pset s p).rx.count = 0 ∧ (pset s p).rx.rxKind = 0 ∧ (pset s p).learn.en = false ∧ (pset s p).learn.flood = false ∧ (pset s p).line.fcsKeep = false ∧ s.pc.rule = [] ∧ s.stn.entry = [] ∧ (tget [] s.rx.csi (sliceOf p)).foldl (fun a e => a + csiCells e.1) 0 + ceilDiv (o.length - 4) 64 ≤ 1024) ∧
    (let s : State := { wb with pc := { recirc := [(1, [{ port := 12, body := List.replicate 60 7, rawLen := 64 }])] } }; let k := 1; let f := { port := 12, body := List.replicate 60 7, rawLen := 64 }; let rest := []; s.ic.wakeHit = none ∧ tget [] s.pc.recirc k = f :: rest ∧ isOn s (dPC k)) ∧
    (let s : State := { wb with rx := { nextId := 4, writes := [{ id := 3, bobbin := 100, index := 0, count := 1, parts := [(0x100000, [9, 8, 7])], record := List.replicate 32 0, code := 0, frame := { port := 12, body := [], rawLen := 64 }, promise := none }] } }; let rid := 3; let error := false; let w := { id := 3, bobbin := 100, index := 0, count := 1, parts := [(0x100000, [9, 8, 7])], record := List.replicate 32 0, code := 0, frame := { port := 12, body := [], rawLen := 64 }, promise := none }; s.ic.wakeHit = none ∧ s.rx.writes.find? (fun w => w.id == rid) = some w ∧ (error = true ∨ w.rest = [] ∨ hasBuffers s w.bobbin = false)) ∧
    (let s : State := { wb with rx := { nextId := 4, writes := [{ id := 3, bobbin := 100, index := 0, count := 1, parts := [(0x100000, [9, 8, 7])], record := List.replicate 32 0, code := 0, frame := { port := 12, body := [], rawLen := 64 }, promise := none }] } }; let rid := 3; let error := true; let w := { id := 3, bobbin := 100, index := 0, count := 1, parts := [(0x100000, [9, 8, 7])], record := List.replicate 32 0, code := 0, frame := { port := 12, body := [], rawLen := 64 }, promise := none }; s.ic.wakeHit = none ∧ s.rx.writes.find? (fun w => w.id == rid) = some w ∧ (error = true ∨ w.rest = [] ∨ hasBuffers s w.bobbin = false)) ∧
    (let s : State := withBob { wb with rx := { nextId := 4, writes := [{ id := 3, bobbin := 300, index := 0, count := 1, parts := [(0x100000, [9, 8, 7])], record := List.replicate 32 0, code := 0, frame := { port := 12, body := [], rawLen := 64 }, promise := none, rest := [5] }] } } 300 { kind := .receive, st := .opened, sizeLog2 := 3, base := 0x4020, window := 1, completion := 200, hostIdx := 0 }; let rid := 3; let error := false; let w := { id := 3, bobbin := 300, index := 0, count := 1, parts := [(0x100000, [9, 8, 7])], record := List.replicate 32 0, code := 0, frame := { port := 12, body := [], rawLen := 64 }, promise := none, rest := [5] }; s.ic.wakeHit = none ∧ s.rx.writes.find? (fun w => w.id == rid) = some w ∧ (error = true ∨ w.rest = [] ∨ hasBuffers s w.bobbin = false)) ∧
    (let s : State := withBob { wb with rx := { nextId := 4, writes := [{ id := 3, bobbin := 300, index := 0, count := 1, parts := [(0x100000, [9, 8, 7])], record := List.replicate 32 0, code := 0, frame := { port := 12, body := [], rawLen := 64 }, promise := none, rest := [5] }] } } 300 { kind := .receive, st := .opened, sizeLog2 := 3, base := 0x4020, window := 1, completion := 200, hostIdx := 5 }; let rid := 3; let error := false; let w := { id := 3, bobbin := 300, index := 0, count := 1, parts := [(0x100000, [9, 8, 7])], record := List.replicate 32 0, code := 0, frame := { port := 12, body := [], rawLen := 64 }, promise := none, rest := [5] }; s.ic.wakeHit = none ∧ s.rx.writes.find? (fun w => w.id == rid) = some w ∧ error = false ∧ w.rest ≠ [] ∧ hasBuffers s w.bobbin = true) ∧
    (let s : State := { wb with rx := { csi := [(1, [([1, 2], 5)])] } }; let k := 1; let e := ([1, 2], 5); let rest := []; s.ic.wakeHit = none ∧ tget [] s.rx.csi k = e :: rest ∧ isOn s (dMS k)) ∧
    (let s : State := wb; let k := 1; let md := BitVec.ofNat 256 (12 + 100 * 2 ^ 5 + 64 * 2 ^ 64); let data := List.replicate 64 5; s.ic.wakeHit = none ∧ isOn s (dMS k) ∧ s.tx.frames.any (fun f => f.origin == .csi k && f.stage == .claiming) = false ∧ csiOk s k md (csiDesc md) ∧ data.length = dLen (csiDesc md)) ∧
    (let s : State := wb; let k := 1; let md := BitVec.ofNat 256 (12 + 100 * 2 ^ 5 + 64 * 2 ^ 64); let data := List.replicate 63 5; s.ic.wakeHit = none ∧ isOn s (dMS k) ∧ s.tx.frames.any (fun f => f.origin == .csi k && f.stage == .claiming) = false ∧ (csiOk s k md (csiDesc md) = false ∨ data.length ≠ dLen (csiDesc md))) ∧
    (let s : State := wb; let k := 2; let md := BitVec.ofNat 256 (12 + 100 * 2 ^ 5 + 64 * 2 ^ 64); let data := List.replicate 64 5; s.ic.wakeHit = none ∧ isOn s (dMS k) ∧ s.tx.frames.any (fun f => f.origin == .csi k && f.stage == .claiming) = false ∧ (csiOk s k md (csiDesc md) = false ∨ data.length ≠ dLen (csiDesc md))) ∧
    (let s : State := { wb with str := { tab := [(16383, { recEn := true, histLen := 8, resetMs := 999 })] } }; let n := 16383; let past := (strm s n).lastPass + (strm s n).resetMs * 1000000 ≤ s.tm.count; s.ic.wakeHit = none ∧ isOn s dSL ∧ sweepDue s n = true ∧ (strm s n).recEn ∧ (strm s n).takeAny = false ∧ past) ∧
    (let s : State := { wb with str := { tab := [(16383, { recEn := true, histLen := 8, resetMs := 1000001 })] } }; let n := 16383; let past := (strm s n).lastPass + (strm s n).resetMs * 1000000 ≤ s.tm.count; s.ic.wakeHit = none ∧ isOn s dSL ∧ sweepDue s n = true ∧ ((strm s n).recEn = false ∨ (strm s n).takeAny = true ∨ ¬ past)) ∧
    (let s : State := { wb with str := { tab := [(16383, { recEn := true, histLen := 8, resetMs := 1000001 })], visit := [(16383, some 999999000000)] } }; let n := 16383; let past := (strm s n).lastPass + (strm s n).resetMs * 1000000 ≤ s.tm.count; s.ic.wakeHit = none ∧ isOn s dSL ∧ sweepDue s n = true ∧ ((strm s n).recEn = false ∨ (strm s n).takeAny = true ∨ ¬ past)) := by refine ⟨?_, ?_, ?_, ?_, ?_, ?_, ?_, ?_, ?_, ?_, ?_, ?_, ?_, ?_, ?_, ?_, ?_, ?_, ?_⟩ <;> decide +kernel
theorem wit_StationEvents :
    (let s : State := { wb with stn := { fifo := [{ fid := 3, mac := 0x0A0B0C0D0E0F, dest := 0x4003 }] } }; let r := { fid := 3, mac := 0x0A0B0C0D0E0F, dest := 0x4003 }; let rest := []; s.ic.wakeHit = none ∧ s.stn.fifo = r :: rest ∧ isOn s dSL ∧ learnReady s r) ∧
    (let s : State := stnWith { w with stn := { fifo := [{ fid := 3, mac := 0x0A0B0C0D0E0F, dest := 0x4003 }] } } { valid := true, dest := 0x4003, age := 1 }; let r := { fid := 3, mac := 0x0A0B0C0D0E0F, dest := 0x4003 }; let rest := []; s.ic.wakeHit = none ∧ s.stn.fifo = r :: rest ∧ isOn s dSL ∧ learnReady s r) ∧
    (let s : State := stnWith { w with stn := { fifo := [{ fid := 3, mac := 0x0A0B0C0D0E0F, dest := 0x4003 }] } } { valid := true, dest := 0x4004, age := 1 }; let r := { fid := 3, mac := 0x0A0B0C0D0E0F, dest := 0x4003 }; let rest := []; s.ic.wakeHit = none ∧ s.stn.fifo = r :: rest ∧ isOn s dSL ∧ learnReady s r) ∧
    (let s : State := stnWith { w with stn := { fifo := [{ fid := 3, mac := 0x0A0B0C0D0E0F, dest := 0x4003 }] } } { valid := true, static := true, dest := 0x4004, age := 1 }; let r := { fid := 3, mac := 0x0A0B0C0D0E0F, dest := 0x4003 }; let rest := []; s.ic.wakeHit = none ∧ s.stn.fifo = r :: rest ∧ isOn s dSL ∧ learnReady s r) ∧
    (let s : State := { w with stn := { period := 1, agePos := 65535, ageInit := 9, entry := [(524280, { valid := true, age := 1 }), (524281, { valid := true, age := 2 }), (524282, { valid := true, touched := true, age := 1 }), (524283, { valid := true, static := true, age := 1 })] } }; s.ic.wakeHit = none ∧ isOn s dSL ∧ s.stn.period ≠ 0 ∧ s.stn.ageDue ≤ s.tm.count * 65536) ∧
    (let s : State := { w with stn := { tickAt := 1000 } }; s.ic.wakeHit = none ∧ isOn s dSL ∧ s.stn.tickAt + holdTau s.stn.h * 1000000 ≤ s.tm.count) ∧
    (let s : State := { w with stn := { tick := 63, entry := [(0, { valid := true, held := true, stamp := 0, age := 3 }), (1, { valid := true, held := true, stamp := 63, age := 3 })] } }; s.ic.wakeHit = none ∧ isOn s dSL ∧ s.stn.holdBase + s.stn.holdPos / 4096 ≤ s.stn.tick) := by refine ⟨?_, ?_, ?_, ?_, ?_, ?_, ?_⟩ <;> decide +kernel
theorem wit_LineEvents :
    (let s : State := portOn w 12 p2 { training := .done }; let p : Nat := 12; let L := line s p; s.ic.wakeHit = none ∧ isEnabled s p ∧ pcsOn s p ∧ L.locked = false) ∧
    (let s : State := wb; let p : Nat := 12; let L := line s p; s.ic.wakeHit = none ∧ pcsOn s p ∧ L.locked) ∧
    (let s : State := portOn w 12 p2 { training := .done, locked := true, lockAt := 1999990000000 }; let p : Nat := 12; let L := line s p; s.ic.wakeHit = none ∧ isEnabled s p ∧ s.port.downing.toNat.testBit p = false ∧ L.up = false ∧ L.locked ∧ L.training = .done ∧ portNormal s p ∧ L.lockAt + (pset s p).line.linkHold * 1000000 ≤ s.tm.now) ∧
    (let s : State := portOn w 8 p8 { training := .done, locked := true, lockAt := 1999990000000 } { shed := { mode := 1, hold := 1, low := 1, grow := 1 } }; let p : Nat := 8; let L := line s p; s.ic.wakeHit = none ∧ isEnabled s p ∧ s.port.downing.toNat.testBit p = false ∧ L.up = false ∧ L.locked ∧ L.training = .done ∧ portNormal s p ∧ L.lockAt + (pset s p).line.linkHold * 1000000 ≤ s.tm.now) ∧
    (let s : State := withLine wb { lineUp with locked := false, lockAt := 1999999999000 }; let p : Nat := 12; let L := line s p; s.ic.wakeHit = none ∧ L.up ∧ L.locked = false ∧ L.shed.st ≠ .switching ∧ L.shed.readyDue = false ∧ L.lockAt + 1000 ≤ s.tm.now) ∧
    (let s : State := portOn w 12 p2 { training := .running }; let p : Nat := 12; let L := line s p; let l := 12; let D := tset false L.laneDone l true; let all := ∀ i, i < lanesNeeded s p → tget false D (p + i) = true; s.ic.wakeHit = none ∧ portOfLane s l = some p ∧ L.training = .running ∧ isOn s (dLG (l / 4)) ∧ ¬ all) ∧
    (let s : State := portOn w 12 p2 { training := .running, laneDone := [(12, true)] }; let p : Nat := 12; let L := line s p; let l := 13; let D := tset false L.laneDone l true; let all := ∀ i, i < lanesNeeded s p → tget false D (p + i) = true; let go := growing s p = true ∧ L.shed.readyDue = false ∧ (L.shed.initiator = true ∨ L.shed.readyGot = true); s.ic.wakeHit = none ∧ portOfLane s l = some p ∧ L.training = .running ∧ isOn s (dLG (l / 4)) ∧ all ∧ ¬ go) ∧
    (let s : State := portOn w 8 p8 { lineUp with width := 4, training := .running, laneDone := [(8, true), (9, true), (10, true), (11, true), (12, true), (13, true), (14, true)], shed := { st := .agreed, target := 8, initiator := true } }; let p : Nat := 8; let L := line s p; let l := 15; let D := tset false L.laneDone l true; let all := ∀ i, i < lanesNeeded s p → tget false D (p + i) = true; let go := growing s p = true ∧ L.shed.readyDue = false ∧ (L.shed.initiator = true ∨ L.shed.readyGot = true); s.ic.wakeHit = none ∧ portOfLane s l = some p ∧ L.training = .running ∧ isOn s (dLG (l / 4)) ∧ all ∧ go) ∧
    (let s : State := portOn w 8 p8 { lineUp with width := 4, training := .running, laneDone := [(8, true), (9, true), (10, true), (11, true), (12, true), (13, true), (14, true)], shed := { st := .agreed, target := 8, readyGot := true } }; let p : Nat := 8; let L := line s p; let l := 15; let D := tset false L.laneDone l true; let all := ∀ i, i < lanesNeeded s p → tget false D (p + i) = true; let go := growing s p = true ∧ L.shed.readyDue = false ∧ (L.shed.initiator = true ∨ L.shed.readyGot = true); s.ic.wakeHit = none ∧ portOfLane s l = some p ∧ L.training = .running ∧ isOn s (dLG (l / 4)) ∧ all ∧ go) ∧
    (let s : State := portOn w 12 p2 { training := .running, laneDone := [(12, true)] }; let p : Nat := 12; let L := line s p; let l := 13; s.ic.wakeHit = none ∧ portOfLane s l = some p ∧ L.training = .running ∧ isOn s (dLG (l / 4))) ∧
    (let s : State := portOn w 12 p2 { training := .failed, trainFailAt := 1999900000000 }; let p : Nat := 12; let L := line s p; s.ic.wakeHit = none ∧ isEnabled s p ∧ s.port.downing.toNat.testBit p = false ∧ L.training = .failed ∧ L.trainFailAt + 100000000 ≤ s.tm.now ∧ portReady s p) ∧
    (let s : State := portOn w 12 (p2) { lineUp with verify := .waiting 2, verifyAt := 1999990000000 } { line := { preempt := .verify } }; let p : Nat := 12; let L := line s p; let n := 2; s.ic.wakeHit = none ∧ L.verify = .waiting n ∧ L.up ∧ preemptOn s p ∧ L.verifyAt + (pset s p).line.verifyMs * 1000000 ≤ s.tm.now) ∧
    (let s : State := portOn w 12 (p2) { lineUp with verify := .waiting 3, verifyAt := 1999990000000 } { line := { preempt := .verify } }; let p : Nat := 12; let L := line s p; let n := 3; s.ic.wakeHit = none ∧ L.verify = .waiting n ∧ L.up ∧ preemptOn s p ∧ L.verifyAt + (pset s p).line.verifyMs * 1000000 ≤ s.tm.now) ∧
    (let s : State := portOn w 12 (p2) { lineUp with verify := .waiting 1 } { line := { preempt := .verify } }; let p : Nat := 12; let L := line s p; let n := 1; s.ic.wakeHit = none ∧ L.verify = .waiting n ∧ L.up ∧ preemptOn s p ∧ echoRx s p (.mpacket true)) ∧
    (let s : State := { portOn w 12 (p2) { lineUp with verify := .waiting 1, echo := [.mpacket true] } { line := { preempt := .verify } } with tst := { loop := [(12, 1)] } }; let p : Nat := 12; let L := line s p; let n := 1; s.ic.wakeHit = none ∧ L.verify = .waiting n ∧ L.up ∧ preemptOn s p ∧ echoRx s p (.mpacket true)) ∧
    (let s : State := portOn w 12 (p2) { lineUp with tx := .idle } { line := { preempt := .verify } }; let p : Nat := 12; s.ic.wakeHit = none ∧ rxOn s p ∧ preemptOn s p ∧ echoRx s p (.mpacket false)) ∧
    (let s : State := portOn w 12 (p2) { lineUp with tx := .idle } { line := { fecDegraded := 9 } }; let p : Nat := 12; let d := p2; s.ic.wakeHit = none ∧ pdef s p = some d ∧ pcsOn s p ∧ d.fec ≠ .none) ∧
    (let s : State := portOn w 12 (p2) { lineUp with tx := .idle } { line := { fecDegraded := 10 } }; let p : Nat := 12; let d := p2; s.ic.wakeHit = none ∧ pdef s p = some d ∧ pcsOn s p ∧ d.fec ≠ .none) ∧
    (let s : State := portOn w 12 ({ p2 with mode := .l25, width := 1, fec := .none }) { lineUp with tx := .idle } { line := { } }; let p : Nat := 12; let d := { p2 with mode := .l25, width := 1, fec := .none }; s.ic.wakeHit = none ∧ pdef s p = some d ∧ pcsOn s p ∧ d.fec = .none) ∧
    (let s : State := portOn w 12 ({ p2 with mode := .l25, width := 1, fec := .none }) { lineUp with idleSince := 1999999992000 } { line := { lpiEn := true } }; let p : Nat := 12; let L := line s p; s.ic.wakeHit = none ∧ L.up ∧ (pset s p).line.lpiEn ∧ L.lpi = false ∧ L.waking = false ∧ L.tx = .idle ∧ L.suspended = none ∧ wantsSend s p = false ∧ max L.idleSince L.upAt + (pset s p).line.lpiIdle * 1000 ≤ s.tm.now) ∧
    (let s : State := withLine wb { lineUp with waking := true, lpiAt := 1999999995000 }; let p : Nat := 12; let L := line s p; s.ic.wakeHit = none ∧ L.waking ∧ L.lpiAt + 5000 ≤ s.tm.now) ∧
    (let s : State := wb; let p : Nat := 12; s.ic.wakeHit = none ∧ wireOn s p) := by refine ⟨?_, ?_, ?_, ?_, ?_, ?_, ?_, ?_, ?_, ?_, ?_, ?_, ?_, ?_, ?_, ?_, ?_, ?_, ?_, ?_, ?_, ?_⟩ <;> decide +kernel
theorem wit_SheddingMessages :
    (let s : State := portOn w 8 p8 { lineUp with shed := { st := .full }, tx := .idle } { shed := { mode := 1, hold := 5, low := 5, grow := 5 } }; let p : Nat := 8; s.ic.wakeHit = none ∧ wireOn s p) ∧
    (let s : State := wb; let p : Nat := 12; let m : ShedMsg := { proposed := 2, txn := 9 }; let L := line s p; let H := L.shed; let w := m.proposed; let prev := .full; let can := shedAble s p ∧ (w = 2 ∨ w = 4 ∨ w = 8); s.ic.wakeHit = none ∧ wireOn s p ∧ ((H.st = .full ∨ H.st = .shed) ∧ prev = H.st ∨ H.st = .proposed ∧ m.src.toNat ≤ (macOf s p).toNat ∧ prev = H.prev) ∧ ¬ can) ∧
    (let s : State := portOn w 8 p8 { lineUp with shed := { st := .shed }, tx := .idle } { shed := { mode := 1, hold := 5, low := 5, grow := 5 } }; let p : Nat := 8; let m : ShedMsg := { proposed := 3, txn := 9 }; let L := line s p; let H := L.shed; let w := m.proposed; let prev := .shed; let can := shedAble s p ∧ (w = 2 ∨ w = 4 ∨ w = 8); s.ic.wakeHit = none ∧ wireOn s p ∧ ((H.st = .full ∨ H.st = .shed) ∧ prev = H.st ∨ H.st = .proposed ∧ m.src.toNat ≤ (macOf s p).toNat ∧ prev = H.prev) ∧ ¬ can) ∧
    (let s : State := portOn w 8 p8 { lineUp with shed := { st := .full }, tx := .idle } { shed := { mode := 0 } }; let p : Nat := 8; let m : ShedMsg := { proposed := 4, txn := 9 }; let L := line s p; let H := L.shed; let w := m.proposed; let prev := .full; let can := shedAble s p ∧ (w = 2 ∨ w = 4 ∨ w = 8); s.ic.wakeHit = none ∧ wireOn s p ∧ ((H.st = .full ∨ H.st = .shed) ∧ prev = H.st ∨ H.st = .proposed ∧ m.src.toNat ≤ (macOf s p).toNat ∧ prev = H.prev) ∧ can ∧ w ≤ widthNow s p ∧ (pset s p).shed.mode = 0) ∧
    (let s : State := { portOn w 8 p8 { lineUp with shed := { st := .full }, tx := .idle } { shed := { mode := 1, hold := 5, low := 5, grow := 5 } } with ct := { tab := [(40, { st := .admitted, img := { img with port := 8, rate := 500000, bound := 60 } })], fabRate := 200000 } }; let p : Nat := 8; let m : ShedMsg := { proposed := 2, txn := 9 }; let L := line s p; let H := L.shed; let w := m.proposed; let prev := .full; let can := shedAble s p ∧ (w = 2 ∨ w = 4 ∨ w = 8); s.ic.wakeHit = none ∧ wireOn s p ∧ ((H.st = .full ∨ H.st = .shed) ∧ prev = H.st ∨ H.st = .proposed ∧ m.src.toNat ≤ (macOf s p).toNat ∧ prev = H.prev) ∧ can ∧ w ≤ widthNow s p ∧ (pset s p).shed.mode ≠ 0 ∧ shedFits (shedRx s p) p w = false) ∧
    (let s : State := portOn w 8 p8 { lineUp with shed := { st := .full }, tx := .idle } { shed := { mode := 1, hold := 5, low := 5, grow := 5 } }; let p : Nat := 8; let m : ShedMsg := { proposed := 4, txn := 9 }; let L := line s p; let H := L.shed; let w := m.proposed; let prev := .full; let can := shedAble s p ∧ (w = 2 ∨ w = 4 ∨ w = 8); s.ic.wakeHit = none ∧ wireOn s p ∧ ((H.st = .full ∨ H.st = .shed) ∧ prev = H.st ∨ H.st = .proposed ∧ m.src.toNat ≤ (macOf s p).toNat ∧ prev = H.prev) ∧ can ∧ w ≤ widthNow s p ∧ (pset s p).shed.mode ≠ 0 ∧ shedFits (shedRx s p) p w = true) ∧
    (let s : State := portOn w 8 p8 { lineUp with shed := { st := .proposed, prev := .full, txn := 3, target := 4, initiator := true }, tx := .idle } { shed := { mode := 1, hold := 5, low := 5, grow := 5 } }; let p : Nat := 8; let m : ShedMsg := { proposed := 2, txn := 9 }; let L := line s p; let H := L.shed; let w := m.proposed; let prev := .full; let can := shedAble s p ∧ (w = 2 ∨ w = 4 ∨ w = 8); s.ic.wakeHit = none ∧ wireOn s p ∧ ((H.st = .full ∨ H.st = .shed) ∧ prev = H.st ∨ H.st = .proposed ∧ m.src.toNat ≤ (macOf s p).toNat ∧ prev = H.prev) ∧ can ∧ w ≤ widthNow s p ∧ (pset s p).shed.mode ≠ 0 ∧ shedFits (shedRx s p) p w = true) ∧
    (let s : State := portOn w 8 p8 { lineUp with shed := { st := .shed }, width := 4 } { shed := { mode := 1, hold := 5, low := 5, grow := 5 } }; let p : Nat := 8; let m : ShedMsg := { proposed := 8, txn := 9 }; let L := line s p; let H := L.shed; let w := m.proposed; let prev := .shed; let can := shedAble s p ∧ (w = 2 ∨ w = 4 ∨ w = 8); s.ic.wakeHit = none ∧ wireOn s p ∧ ((H.st = .full ∨ H.st = .shed) ∧ prev = H.st ∨ H.st = .proposed ∧ m.src.toNat ≤ (macOf s p).toNat ∧ prev = H.prev) ∧ can ∧ widthNow s p < w) ∧
    (let s : State := portOn w 8 p8 { lineUp with shed := { st := .agreed }, tx := .idle } { shed := { mode := 1, hold := 5, low := 5, grow := 5 } }; let p : Nat := 8; let m : ShedMsg := { proposed := 4, txn := 9 }; let L := line s p; let H := L.shed; s.ic.wakeHit = none ∧ wireOn s p ∧ (H.st = .agreed ∨ H.st = .switching ∨ H.st = .proposed ∧ (macOf s p).toNat < m.src.toNat)) ∧
    (let s : State := portOn w 8 p8 { lineUp with shed := { st := .switching }, tx := .idle } { shed := { mode := 1, hold := 5, low := 5, grow := 5 } }; let p : Nat := 8; let m : ShedMsg := { proposed := 4, txn := 9 }; let L := line s p; let H := L.shed; s.ic.wakeHit = none ∧ wireOn s p ∧ (H.st = .agreed ∨ H.st = .switching ∨ H.st = .proposed ∧ (macOf s p).toNat < m.src.toNat)) ∧
    (let s : State := portOn w 8 p8 { lineUp with shed := { st := .proposed }, tx := .idle } { shed := { mode := 1, hold := 5, low := 5, grow := 5 } }; let p : Nat := 8; let m : ShedMsg := { src := 0xFFFFFFFFFFFF, proposed := 4 }; let L := line s p; let H := L.shed; s.ic.wakeHit = none ∧ wireOn s p ∧ (H.st = .agreed ∨ H.st = .switching ∨ H.st = .proposed ∧ (macOf s p).toNat < m.src.toNat)) ∧
    (let s : State := portOn w 8 p8 { lineUp with shed := { st := .proposed, txn := 9, target := 4, initiator := true }, tx := .idle } { shed := { mode := 1, hold := 5, low := 5, grow := 5 } }; let p : Nat := 8; let m : ShedMsg := { proposed := 4, txn := 9 }; let L := line s p; let H := L.shed; s.ic.wakeHit = none ∧ wireOn s p ∧ H.st = .proposed ∧ m.txn = H.txn ∧ H.target ≤ widthNow s p) ∧
    (let s : State := portOn w 8 p8 { lineUp with shed := { st := .proposed, prev := .shed, txn := 9, target := 8, initiator := true }, width := 4 } { shed := { mode := 1, hold := 5, low := 5, grow := 5 } }; let p : Nat := 8; let m : ShedMsg := { proposed := 8, txn := 9 }; let L := line s p; let H := L.shed; s.ic.wakeHit = none ∧ wireOn s p ∧ H.st = .proposed ∧ m.txn = H.txn ∧ widthNow s p < H.target) ∧
    (let s : State := portOn w 8 p8 { lineUp with shed := { st := .full }, tx := .idle } { shed := { mode := 1, hold := 5, low := 5, grow := 5 } }; let p : Nat := 8; let m : ShedMsg := { proposed := 4, txn := 9 }; let L := line s p; let H := L.shed; s.ic.wakeHit = none ∧ wireOn s p ∧ (H.st ≠ .proposed ∨ m.txn ≠ H.txn)) ∧
    (let s : State := portOn w 8 p8 { lineUp with shed := { st := .proposed, txn := 8 }, tx := .idle } { shed := { mode := 1, hold := 5, low := 5, grow := 5 } }; let p : Nat := 8; let m : ShedMsg := { proposed := 4, txn := 9 }; let L := line s p; let H := L.shed; s.ic.wakeHit = none ∧ wireOn s p ∧ (H.st ≠ .proposed ∨ m.txn ≠ H.txn)) ∧
    (let s : State := portOn w 8 p8 { lineUp with shed := { st := .proposed, txn := 9, target := 4, initiator := true }, tx := .idle } { shed := { mode := 1, hold := 5, low := 5, grow := 5 } }; let p : Nat := 8; let L := line s p; let H := L.shed; s.ic.wakeHit = none ∧ wireOn s p ∧ H.st = .proposed) ∧
    (let s : State := portOn w 8 p8 { lineUp with shed := { st := .agreed }, tx := .idle } { shed := { mode := 1, hold := 5, low := 5, grow := 5 } }; let p : Nat := 8; let L := line s p; let H := L.shed; s.ic.wakeHit = none ∧ wireOn s p ∧ H.st ≠ .proposed) ∧
    (let s : State := portOn w 8 p8 { lineUp with shed := { st := .agreed, txn := 9, target := 4 }, tx := .idle } { shed := { mode := 1, hold := 5, low := 5, grow := 5 } }; let p : Nat := 8; let m : ShedMsg := { proposed := 4, txn := 9 }; let L := line s p; let H := L.shed; s.ic.wakeHit = none ∧ wireOn s p ∧ m.txn = H.txn ∧ H.st = .agreed ∧ H.initiator = false ∧ H.readyDue = false ∧ (growing s p = false ∨ lanesDone s p = true)) ∧
    (let s : State := portOn w 8 p8 { lineUp with shed := { st := .agreed, txn := 9, target := 8 }, width := 4, laneDone := (List.range 8).map (fun i => (8 + i, true)) } { shed := { mode := 1, hold := 5, low := 5, grow := 5 } }; let p : Nat := 8; let m : ShedMsg := { proposed := 4, txn := 9 }; let L := line s p; let H := L.shed; s.ic.wakeHit = none ∧ wireOn s p ∧ m.txn = H.txn ∧ H.st = .agreed ∧ H.initiator = false ∧ H.readyDue = false ∧ (growing s p = false ∨ lanesDone s p = true)) ∧
    (let s : State := portOn w 8 p8 { lineUp with shed := { st := .agreed, txn := 9, target := 8 }, width := 4 } { shed := { mode := 1, hold := 5, low := 5, grow := 5 } }; let p : Nat := 8; let m : ShedMsg := { proposed := 4, txn := 9 }; let L := line s p; let H := L.shed; s.ic.wakeHit = none ∧ wireOn s p ∧ m.txn = H.txn ∧ H.st = .agreed ∧ H.initiator = false ∧ H.readyDue = false ∧ growing s p = true ∧ lanesDone s p = false) ∧
    (let s : State := portOn w 8 p8 { lineUp with shed := { st := .switching, txn := 9, target := 4, initiator := true }, tx := .idle } { shed := { mode := 1, hold := 5, low := 5, grow := 5 } }; let p : Nat := 8; let m : ShedMsg := { proposed := 4, txn := 9 }; let L := line s p; let H := L.shed; s.ic.wakeHit = none ∧ wireOn s p ∧ m.txn = H.txn ∧ (H.st = .switching ∨ H.readyDue = true) ∧ H.initiator = true) ∧
    (let s : State := portOn w 8 p8 { lineUp with shed := { st := .agreed, txn := 9, target := 4, initiator := true, readyDue := true }, tx := .idle } { shed := { mode := 1, hold := 5, low := 5, grow := 5 } }; let p : Nat := 8; let m : ShedMsg := { proposed := 4, txn := 9 }; let L := line s p; let H := L.shed; s.ic.wakeHit = none ∧ wireOn s p ∧ m.txn = H.txn ∧ (H.st = .switching ∨ H.readyDue = true) ∧ H.initiator = true) ∧
    (let s : State := portOn w 8 p8 { lineUp with shed := { st := .agreed, txn := 9 }, tx := .idle } { shed := { mode := 1, hold := 5, low := 5, grow := 5 } }; let p : Nat := 8; let m : ShedMsg := { proposed := 4, txn := 8 }; let L := line s p; let H := L.shed; s.ic.wakeHit = none ∧ wireOn s p ∧ m.txn ≠ H.txn) ∧
    (let s : State := portOn w 8 p8 { lineUp with shed := { st := .full }, tx := .idle } { shed := { mode := 1, hold := 5, low := 5, grow := 5 } }; let p : Nat := 8; s.ic.wakeHit = none ∧ wireOn s p) ∧
    (let s : State := portOn w 8 p8 { lineUp with shed := { st := .agreed, txn := 9, target := 4 }, tx := .idle } { shed := { mode := 1, hold := 5, low := 5, grow := 5 } }; let p : Nat := 8; let L := line s p; let H := L.shed; s.ic.wakeHit = none ∧ wireOn s p ∧ H.st = .agreed ∧ H.initiator = false ∧ H.readyDue = false) ∧
    (let s : State := portOn w 8 p8 { lineUp with shed := { st := .full }, tx := .idle } { shed := { mode := 1, hold := 5, low := 5, grow := 5 } }; let p : Nat := 8; let L := line s p; let H := L.shed; s.ic.wakeHit = none ∧ wireOn s p ∧ (H.st ≠ .agreed ∨ H.initiator = true ∨ H.readyDue = true)) ∧
    (let s : State := portOn w 8 p8 { lineUp with shed := { st := .agreed, initiator := true }, tx := .idle } { shed := { mode := 1, hold := 5, low := 5, grow := 5 } }; let p : Nat := 8; let L := line s p; let H := L.shed; s.ic.wakeHit = none ∧ wireOn s p ∧ (H.st ≠ .agreed ∨ H.initiator = true ∨ H.readyDue = true)) ∧
    (let s : State := portOn w 8 p8 { lineUp with shed := { st := .agreed, readyDue := true }, tx := .idle } { shed := { mode := 1, hold := 5, low := 5, grow := 5 } }; let p : Nat := 8; let L := line s p; let H := L.shed; s.ic.wakeHit = none ∧ wireOn s p ∧ (H.st ≠ .agreed ∨ H.initiator = true ∨ H.readyDue = true)) := by refine ⟨?_, ?_, ?_, ?_, ?_, ?_, ?_, ?_, ?_, ?_, ?_, ?_, ?_, ?_, ?_, ?_, ?_, ?_, ?_, ?_, ?_, ?_, ?_, ?_, ?_, ?_, ?_, ?_⟩ <;> decide +kernel
theorem wit_SheddingTimers :
    (let s : State := portOn w 8 p8 { lineUp with shed := { st := .proposed, since := 1999999000000, target := 4 }, tx := .idle } { shed := { mode := 1, hold := 5, low := 5, grow := 5 } }; let p : Nat := 8; let L := line s p; let H := L.shed; s.ic.wakeHit = none ∧ (H.st = .proposed ∨ (H.st = .agreed ∧ H.initiator ∧ H.readyDue = false)) ∧ H.since + 1000000 ≤ s.tm.now) ∧
    (let s : State := portOn w 8 p8 { lineUp with shed := { st := .agreed, initiator := true, since := 1999999000000 }, tx := .idle } { shed := { mode := 1, hold := 5, low := 5, grow := 5 } }; let p : Nat := 8; let L := line s p; let H := L.shed; s.ic.wakeHit = none ∧ (H.st = .proposed ∨ (H.st = .agreed ∧ H.initiator ∧ H.readyDue = false)) ∧ H.since + 1000000 ≤ s.tm.now) ∧
    (let s : State := portOn w 8 p8 { lineUp with shed := { st := .agreed, since := 1999999000000, target := 4 }, tx := .idle } { shed := { mode := 1, hold := 5, low := 5, grow := 5 } }; let p : Nat := 8; let L := line s p; let H := L.shed; s.ic.wakeHit = none ∧ H.st = .agreed ∧ H.initiator = false ∧ H.readyGot = false ∧ H.readyDue = false ∧ H.since + 1000000 ≤ s.tm.now) ∧
    (let s : State := portOn w 8 p8 { lineUp with shed := { st := .switching, readySent := true, readyGot := true, target := 4 }, tx := .idle } { shed := { mode := 1, hold := 5, low := 5, grow := 5 } }; let p : Nat := 8; let L := line s p; let H := L.shed; let d := p8; s.ic.wakeHit = none ∧ pdef s p = some d ∧ H.st = .switching ∧ H.readyGot) ∧
    (let s : State := portOn w 8 p8 { lineUp with shed := { st := .switching, readySent := true, readyGot := true, target := 8 }, tx := .idle } { shed := { mode := 1, hold := 5, low := 5, grow := 5 } }; let p : Nat := 8; let L := line s p; let H := L.shed; let d := p8; s.ic.wakeHit = none ∧ pdef s p = some d ∧ H.st = .switching ∧ H.readyGot) ∧
    (let s : State := portOn w 8 p8 { lineUp with shed := { st := .switching, since := 1999999992000, target := 4 }, tx := .idle } { shed := { mode := 1, hold := 5, low := 5, grow := 5 } }; let p : Nat := 8; let L := line s p; let H := L.shed; s.ic.wakeHit = none ∧ H.st = .switching ∧ H.since + 8000 ≤ s.tm.now) ∧
    (let s : State := portOn w 8 p8 { lineUp with shed := { lastOffer := 1999000000000 }, tx := .idle } { shed := { mode := 1, hold := 5, low := 5, grow := 5 } }; let p : Nat := 8; let L := line s p; let H := L.shed; s.ic.wakeHit = none ∧ L.up ∧ shedAble s p ∧ (pset s p).shed.mode ≠ 0 ∧ H.lastOffer + 1000000000 ≤ s.tm.now) ∧
    (let s : State := portOn w 8 p8 { lineUp with shed := { windowAt := 1999999936000, peerOffered := true, lowWindows := 1 }, width := 8 } { shed := { mode := 1, hold := 2, low := 50, grow := 10 } }; let p : Nat := 8; let L := line s p; let H := L.shed; let W := ({ windowAt := 2000000000000, peerOffered := true, lowWindows := 2 } : Shed); let S := (pset s p).shed; let w := widthNow s p; let r := curRate s p; let n := if H.octets * 32 < S.low * (r / 2) ∧ 2 < w then H.lowWindows + 1 else 0; let want := if S.mode = 0 then some 8 else if S.mode = 2 then some S.width else if w < 8 ∧ S.grow * r < H.octets * 32 then some 8 else if S.hold ≤ n ∧ 2 < w then some (w / 2) else none; let may := fun x => H.peerOffered = true ∧ (H.st = .full ∨ H.st = .shed) ∧ H.notBefore ≤ s.tm.now ∧ x ≠ w ∧ (w < x ∨ shedFits (setLine s p { L with shed := W }) p x = true); let x := 4; s.ic.wakeHit = none ∧ L.up ∧ shedAble s p ∧ ((pset s p).shed.mode ≠ 0 ∨ H.growOff = true) ∧ H.windowAt + 64000 ≤ s.tm.now ∧ W = { H with lowWindows := n, octets := 0, windowAt := s.tm.now, growOff := H.growOff && decide (w < 8) } ∧ want = some x ∧ may x) ∧
    (let s : State := portOn w 8 p8 { lineUp with shed := { windowAt := 1999999936000, peerOffered := true }, width := 8 } { shed := { mode := 2, width := 4 } }; let p : Nat := 8; let L := line s p; let H := L.shed; let W := ({ windowAt := 2000000000000, peerOffered := true, lowWindows := 0 } : Shed); let S := (pset s p).shed; let w := widthNow s p; let r := curRate s p; let n := if H.octets * 32 < S.low * (r / 2) ∧ 2 < w then H.lowWindows + 1 else 0; let want := if S.mode = 0 then some 8 else if S.mode = 2 then some S.width else if w < 8 ∧ S.grow * r < H.octets * 32 then some 8 else if S.hold ≤ n ∧ 2 < w then some (w / 2) else none; let may := fun x => H.peerOffered = true ∧ (H.st = .full ∨ H.st = .shed) ∧ H.notBefore ≤ s.tm.now ∧ x ≠ w ∧ (w < x ∨ shedFits (setLine s p { L with shed := W }) p x = true); let x := 4; s.ic.wakeHit = none ∧ L.up ∧ shedAble s p ∧ ((pset s p).shed.mode ≠ 0 ∨ H.growOff = true) ∧ H.windowAt + 64000 ≤ s.tm.now ∧ W = { H with lowWindows := n, octets := 0, windowAt := s.tm.now, growOff := H.growOff && decide (w < 8) } ∧ want = some x ∧ may x) ∧
    (let s : State := portOn w 8 p8 { lineUp with shed := { windowAt := 1999999936000, peerOffered := true, growOff := true, st := .shed }, width := 4 } { shed := { mode := 0 } }; let p : Nat := 8; let L := line s p; let H := L.shed; let W := ({ windowAt := 2000000000000, peerOffered := true, growOff := true, st := .shed } : Shed); let S := (pset s p).shed; let w := widthNow s p; let r := curRate s p; let n := if H.octets * 32 < S.low * (r / 2) ∧ 2 < w then H.lowWindows + 1 else 0; let want := if S.mode = 0 then some 8 else if S.mode = 2 then some S.width else if w < 8 ∧ S.grow * r < H.octets * 32 then some 8 else if S.hold ≤ n ∧ 2 < w then some (w / 2) else none; let may := fun x => H.peerOffered = true ∧ (H.st = .full ∨ H.st = .shed) ∧ H.notBefore ≤ s.tm.now ∧ x ≠ w ∧ (w < x ∨ shedFits (setLine s p { L with shed := W }) p x = true); let x := 8; s.ic.wakeHit = none ∧ L.up ∧ shedAble s p ∧ ((pset s p).shed.mode ≠ 0 ∨ H.growOff = true) ∧ H.windowAt + 64000 ≤ s.tm.now ∧ W = { H with lowWindows := n, octets := 0, windowAt := s.tm.now, growOff := H.growOff && decide (w < 8) } ∧ want = some x ∧ may x) ∧
    (let s : State := portOn w 8 p8 { lineUp with shed := { windowAt := 1999999936000, peerOffered := true, octets := 99999999999, st := .shed }, width := 4 } { shed := { mode := 1, hold := 2, low := 0, grow := 10 } }; let p : Nat := 8; let L := line s p; let H := L.shed; let W := ({ windowAt := 2000000000000, peerOffered := true, st := .shed } : Shed); let S := (pset s p).shed; let w := widthNow s p; let r := curRate s p; let n := if H.octets * 32 < S.low * (r / 2) ∧ 2 < w then H.lowWindows + 1 else 0; let want := if S.mode = 0 then some 8 else if S.mode = 2 then some S.width else if w < 8 ∧ S.grow * r < H.octets * 32 then some 8 else if S.hold ≤ n ∧ 2 < w then some (w / 2) else none; let may := fun x => H.peerOffered = true ∧ (H.st = .full ∨ H.st = .shed) ∧ H.notBefore ≤ s.tm.now ∧ x ≠ w ∧ (w < x ∨ shedFits (setLine s p { L with shed := W }) p x = true); let x := 8; s.ic.wakeHit = none ∧ L.up ∧ shedAble s p ∧ ((pset s p).shed.mode ≠ 0 ∨ H.growOff = true) ∧ H.windowAt + 64000 ≤ s.tm.now ∧ W = { H with lowWindows := n, octets := 0, windowAt := s.tm.now, growOff := H.growOff && decide (w < 8) } ∧ want = some x ∧ may x) ∧
    (let s : State := portOn w 8 p8 { lineUp with shed := { windowAt := 1999999936000, peerOffered := true, lowWindows := 1 }, width := 8 } { shed := { mode := 1, hold := 3, low := 50, grow := 10 } }; let p : Nat := 8; let L := line s p; let H := L.shed; let W := ({ windowAt := 2000000000000, peerOffered := true, lowWindows := 2 } : Shed); let S := (pset s p).shed; let w := widthNow s p; let r := curRate s p; let n := if H.octets * 32 < S.low * (r / 2) ∧ 2 < w then H.lowWindows + 1 else 0; let want := if S.mode = 0 then some 8 else if S.mode = 2 then some S.width else if w < 8 ∧ S.grow * r < H.octets * 32 then some 8 else if S.hold ≤ n ∧ 2 < w then some (w / 2) else none; s.ic.wakeHit = none ∧ L.up ∧ shedAble s p ∧ ((pset s p).shed.mode ≠ 0 ∨ H.growOff = true) ∧ H.windowAt + 64000 ≤ s.tm.now ∧ W = { H with lowWindows := n, octets := 0, windowAt := s.tm.now, growOff := H.growOff && decide (w < 8) } ∧ want = none) ∧
    (let s : State := portOn w 8 p8 { lineUp with shed := { windowAt := 1999999936000, peerOffered := false }, width := 8 } { shed := { mode := 2, width := 4 } }; let p : Nat := 8; let L := line s p; let H := L.shed; let W := ({ windowAt := 2000000000000, peerOffered := false, lowWindows := 0 } : Shed); let S := (pset s p).shed; let w := widthNow s p; let r := curRate s p; let n := if H.octets * 32 < S.low * (r / 2) ∧ 2 < w then H.lowWindows + 1 else 0; let want := if S.mode = 0 then some 8 else if S.mode = 2 then some S.width else if w < 8 ∧ S.grow * r < H.octets * 32 then some 8 else if S.hold ≤ n ∧ 2 < w then some (w / 2) else none; let may := fun x => H.peerOffered = true ∧ (H.st = .full ∨ H.st = .shed) ∧ H.notBefore ≤ s.tm.now ∧ x ≠ w ∧ (w < x ∨ shedFits (setLine s p { L with shed := W }) p x = true); let x := 4; s.ic.wakeHit = none ∧ L.up ∧ shedAble s p ∧ ((pset s p).shed.mode ≠ 0 ∨ H.growOff = true) ∧ H.windowAt + 64000 ≤ s.tm.now ∧ W = { H with lowWindows := n, octets := 0, windowAt := s.tm.now, growOff := H.growOff && decide (w < 8) } ∧ want = some x ∧ ¬ may x) := by refine ⟨?_, ?_, ?_, ?_, ?_, ?_, ?_, ?_, ?_, ?_, ?_, ?_, ?_⟩ <;> decide +kernel
theorem wit_PauseAndPfc :
    (let s : State := portOn w 12 (p2) { lineUp with tx := .idle } { line := { fc := .pfc, pbDepth := 1000000, pbFill := 10 }, genMask := 0xFFFF, xoffDelay := 5 }; let p : Nat := 12; s.ic.wakeHit = none ∧ wireOn s p ∧ (pset s p).line.fc ≠ .pause) ∧
    (let s : State := portOn w 12 (p2) { lineUp with tx := .idle } { line := { fc := .pause, pbDepth := 1000000, pbFill := 10 }, genMask := 0xFFFF, xoffDelay := 5 }; let p : Nat := 12; s.ic.wakeHit = none ∧ wireOn s p ∧ (pset s p).line.fc = .pause) ∧
    (let s : State := portOn w 12 (p2) { lineUp with held := 0xFFFF, holdEnd := [(0, 2000000000001), (15, 2000000000001)] } { line := { fc := .pause, pbDepth := 1000000, pbFill := 10 }, genMask := 0xFFFF, xoffDelay := 5 }; let p : Nat := 12; s.ic.wakeHit = none ∧ wireOn s p ∧ (pset s p).line.fc = .pause) ∧
    (let s : State := portOn w 12 (p2) { lineUp with tx := .idle } { line := { fc := .pause, pbDepth := 1000000, pbFill := 10 }, genMask := 0xFFFF, xoffDelay := 5 }; let p : Nat := 12; s.ic.wakeHit = none ∧ wireOn s p ∧ (pset s p).line.fc = .pause) ∧
    (let s : State := portOn w 12 (p2) { lineUp with tx := .idle } { line := { fc := .pause, pbDepth := 1000000, pbFill := 10 }, genMask := 0xFFFF, xoffDelay := 5 }; let p : Nat := 12; s.ic.wakeHit = none ∧ wireOn s p ∧ (pset s p).line.fc ≠ .pfc) ∧
    (let s : State := portOn w 12 (p2) { lineUp with tx := .idle } { line := { fc := .pfc, pbDepth := 1000000, pbFill := 10 }, genMask := 0xFFFF, xoffDelay := 5 }; let p : Nat := 12; s.ic.wakeHit = none ∧ wireOn s p ∧ (pset s p).line.fc = .pfc) ∧
    (let s : State := portOn w 12 (p2) { lineUp with held := 0xFFFF, holdEnd := [(1, 2000000000001), (9, 2000000000001)] } { line := { fc := .pfc, pbDepth := 1000000, pbFill := 10 }, genMask := 0xFFFF, xoffDelay := 5 }; let p : Nat := 12; s.ic.wakeHit = none ∧ wireOn s p ∧ (pset s p).line.fc = .pfc) ∧
    (let s : State := portOn w 12 (p2) { lineUp with holdEnd := [(15, 2000000000001)], holdFrom := [(15, 2000000000000)] } { line := { fc := .pfc, pbDepth := 1000000, pbFill := 10 }, genMask := 0xFFFF, xoffDelay := 5 }; let p : Nat := 12; let cl := 15; s.ic.wakeHit = none ∧ cl < 16 ∧ isOn s (dMS (sliceOf p)) ∧ s.tm.now < tget 0 (line s p).holdEnd cl ∧ tget 0 (line s p).holdFrom cl ≤ s.tm.now ∧ (line s p).armed.any (fun e => e.1 == cl) = false ∧ (line s p).held.toNat.testBit cl = false) ∧
    (let s : State := portOn w 12 (p2) { lineUp with held := 0x8000, holdEnd := [(15, 2000000000000)] } { line := { fc := .pfc, pbDepth := 1000000, pbFill := 10 }, genMask := 0xFFFF, xoffDelay := 5 }; let p : Nat := 12; let cl := 15; s.ic.wakeHit = none ∧ cl < 16 ∧ tget 0 (line s p).holdEnd cl ≠ 0 ∧ tget 0 (line s p).holdEnd cl ≤ s.tm.now) ∧
    (let s : State := portOn w 12 (p2) { lineUp with tx := .idle } { line := { fc := .pfc, pbDepth := 1000000, pbFill := 10 }, genMask := 0xFFFF, xoffDelay := 5 }; let p : Nat := 12; let cl := 15; s.ic.wakeHit = none ∧ mayXoff s p cl ∧ heldBack s p cl = false) ∧
    (let s : State := portOn w 12 (p2) { lineUp with xoff := [(3, { since := some 5, sentAt := some 6 })] } { line := { fc := .pause, pbDepth := 1000000, pbFill := 10 }, genMask := 0xFFFF, xoffDelay := 5 }; let p : Nat := 12; let cl := 3; s.ic.wakeHit = none ∧ mayXoff s p cl ∧ heldBack s p cl = false) ∧
    (let s : State := portOn w 12 (p2) { lineUp with tx := .idle } { line := { fc := .pfc, pbDepth := 1000000, pbFill := 10 }, genMask := 0xFFFF, xoffDelay := 5 }; let p : Nat := 12; let cl := 15; s.ic.wakeHit = none ∧ mayXoff s p cl ∧ heldBack s p cl = false) ∧
    (let s : State := { portOn w 12 (p2) { lineUp with xoff := [(3, {})] } { line := { fc := .pfc, pbDepth := 1000000, pbFill := 10 }, genMask := 0xFFFF, xoffDelay := 5 } with bob := (withBob wb 100 { kind := .receive, st := .opened, sizeLog2 := 3, base := 0x4000, window := 1, completion := 200 }).bob, ct := { tab := [(40, { st := .admitted, img := { img with rx := true, cls := 3 }, bobbin := some 100 })] } }; let p : Nat := 12; let cl := 3; let x := xoffOf s p cl; s.ic.wakeHit = none ∧ mayXoff s p cl ∧ heldBack s p cl = true ∧ x.since = none) ∧
    (let s : State := { portOn w 12 (p2) { lineUp with xoff := [(3, {})] } { line := { fc := .pfc, pbDepth := 1000000, pbFill := 10 }, genMask := 0xFFFF, xoffDelay := 5 } with bob := (withBob wb 100 { kind := .receive, st := .opened, sizeLog2 := 3, base := 0x4000, window := 1, completion := 200 }).bob, ct := { tab := [(40, { st := .admitted, img := { img with rx := true, cls := 3 }, bobbin := some 100 })] } }; let p : Nat := 12; let cl := 3; let x := xoffOf s p cl; s.ic.wakeHit = none ∧ mayXoff s p cl ∧ heldBack s p cl = true ∧ x.since = none ∧ x.sentAt = none) ∧
    (let s : State := { portOn w 12 (p2) { lineUp with xoff := [(3, { since := some 1999999999994 })] } { line := { fc := .pfc, pbDepth := 1000000, pbFill := 10 }, genMask := 0xFFFF, xoffDelay := 5 } with bob := (withBob wb 100 { kind := .receive, st := .opened, sizeLog2 := 3, base := 0x4000, window := 1, completion := 200 }).bob, ct := { tab := [(40, { st := .admitted, img := { img with rx := true, cls := 3 }, bobbin := some 100 })] } }; let p : Nat := 12; let cl := 3; let x := xoffOf s p cl; let t0 := 1999999999994; s.ic.wakeHit = none ∧ mayXoff s p cl ∧ heldBack s p cl = true ∧ x.since = some t0 ∧ x.sentAt = none ∧ t0 + (pset s p).xoffDelay < s.tm.now) ∧
    (let s : State := { portOn w 12 (p2) { lineUp with xoff := [(3, { since := some 1999999999995 })] } { line := { fc := .pfc, pbDepth := 1000000, pbFill := 10 }, genMask := 0xFFFF, xoffDelay := 5 } with bob := (withBob wb 100 { kind := .receive, st := .opened, sizeLog2 := 3, base := 0x4000, window := 1, completion := 200 }).bob, ct := { tab := [(40, { st := .admitted, img := { img with rx := true, cls := 3 }, bobbin := some 100 })] } }; let p : Nat := 12; let cl := 3; let x := xoffOf s p cl; let t0 := 1999999999995; s.ic.wakeHit = none ∧ mayXoff s p cl ∧ heldBack s p cl = true ∧ x.since = some t0 ∧ (x.sentAt ≠ none ∨ s.tm.now ≤ t0 + (pset s p).xoffDelay)) ∧
    (let s : State := { portOn w 12 (p2) { lineUp with xoff := [(3, { since := some 1, sentAt := some 1999999999995 })] } { line := { fc := .pfc, pbDepth := 1000000, pbFill := 10 }, genMask := 0xFFFF, xoffDelay := 5 } with bob := (withBob wb 100 { kind := .receive, st := .opened, sizeLog2 := 3, base := 0x4000, window := 1, completion := 200 }).bob, ct := { tab := [(40, { st := .admitted, img := { img with rx := true, cls := 3 }, bobbin := some 100 })] } }; let p : Nat := 12; let cl := 3; let x := xoffOf s p cl; let t0 := 1; s.ic.wakeHit = none ∧ mayXoff s p cl ∧ heldBack s p cl = true ∧ x.since = some t0 ∧ (x.sentAt ≠ none ∨ s.tm.now ≤ t0 + (pset s p).xoffDelay)) ∧
    (let s : State := { portOn w 12 (p2) { lineUp with xoff := [(3, { since := some 5, sentAt := some 1999900000000 })] } { line := { fc := .pfc, pbDepth := 1000000, pbFill := 10 }, genMask := 0xFFFF, xoffDelay := 5 } with bob := (withBob wb 100 { kind := .receive, st := .opened, sizeLog2 := 3, base := 0x4000, window := 1, completion := 200 }).bob, ct := { tab := [(40, { st := .admitted, img := { img with rx := true, cls := 3 }, bobbin := some 100 })] } }; let p : Nat := 12; let cl := 3; let x := xoffOf s p cl; let t0 := 5; let t1 := 1999900000000; s.ic.wakeHit = none ∧ mayXoff s p cl ∧ heldBack s p cl = true ∧ x.since = some t0 ∧ x.sentAt = some t1 ∧ t1 + ceilDiv (0xFFFF * 256 * 1000) (curRate s p) ≤ s.tm.now) ∧
    (let s : State := { portOn w 12 (p2) { lineUp with xoff := [(3, { since := some 5, sentAt := some 1999999999000 })] } { line := { fc := .pause, pbDepth := 1000000, pbFill := 10 }, genMask := 0xFFFF, xoffDelay := 5 } with bob := (withBob wb 100 { kind := .receive, st := .opened, sizeLog2 := 3, base := 0x4000, window := 1, completion := 200 }).bob, ct := { tab := [(40, { st := .admitted, img := { img with rx := true, cls := 3 }, bobbin := some 100 })] } }; let p : Nat := 12; let cl := 3; let x := xoffOf s p cl; let t0 := 5; let t1 := 1999999999000; s.ic.wakeHit = none ∧ mayXoff s p cl ∧ heldBack s p cl = true ∧ x.since = some t0 ∧ x.sentAt = some t1 ∧ s.tm.now < t1 + ceilDiv (0xFFFF * 256 * 1000) (curRate s p)) ∧
    (let s : State := { portOn w 12 (p2) { lineUp with xoff := [(3, { since := some 5 })] } { line := { fc := .pfc, pbDepth := 1000000, pbFill := 10 }, genMask := 0xFFFF, xoffDelay := 5 } with bob := (withBob wb 100 { kind := .receive, st := .opened, sizeLog2 := 3, base := 0x4000, window := 1, completion := 200 }).bob, ct := { tab := [(40, { st := .admitted, img := { img with rx := true, cls := 3 }, bobbin := some 100 })] } }; let p : Nat := 12; let cl := 3; let x := xoffOf s p cl; let t0 := 5; s.ic.wakeHit = none ∧ mayXoff s p cl ∧ heldBack s p cl = true ∧ x.since = some t0 ∧ x.sentAt = none) := by refine ⟨?_, ?_, ?_, ?_, ?_, ?_, ?_, ?_, ?_, ?_, ?_, ?_, ?_, ?_, ?_, ?_, ?_, ?_, ?_, ?_⟩ <;> decide +kernel
theorem wit_ContractAdmission :
    (let s : State := { ({ portOn wb 12 p2 lineUp { line := { m := 9600 } } with ct := { fabRate := 200000 } }) with sq := { w.sq with admRun := some { ring := 5, result := {}, left := 3 } } }; let c : Cmd := cm 5 65535 [(8,4,10),(9,0,12),(10,0,1522),(12,0,1000),(15,0,3084),(18,0,500)]; let n := objNum c; let i := imageOf c; inStarter s = false ∧ imageBad s i = false ∧ (contr s n).st = .free ∧ Starts s 0x30 useContract c ∧ admBusy s = true) ∧
    (let s : State := { ({ portOn wb 12 p2 lineUp { line := { m := 9600 } } with ct := { fabRate := 200000 } }) with ct := { fabRate := 200000, tab := (List.range 16).map (fun n => (n, { st := .admitted, img := img })) } }; let c : Cmd := cm 5 40 [(8,4,10),(9,0,12),(10,0,1522),(12,0,1000),(15,0,3084),(18,0,500)]; let n := objNum c; let i := imageOf c; inStarter s = false ∧ imageBad s i = false ∧ (contr s n).st = .free ∧ Starts s 0x30 useContract c ∧ admBusy s = false ∧ testSteps s (some (n, i)) ≠ 1) ∧
    (let s : State := { portOn wb 12 p2 lineUp { line := { m := 9600 } } with ct := { fabRate := 200000 } }; let c : Cmd := cm 5 0 [(8,4,10),(9,0,12),(10,0,1522),(12,0,1000),(15,0,3084),(18,0,60)]; let n := objNum c; let i := imageOf c; let r := admTest s (some (n, i)); inStarter s = false ∧ imageBad s i = false ∧ (contr s n).st = .free ∧ Starts s 0x30 useContract c ∧ admBusy s = false ∧ testSteps s (some (n, i)) = 1 ∧ r.reason ≠ 0) ∧
    (let s : State := { portOn wb 12 p2 lineUp { line := { m := 9600 } } with ct := { fabRate := 200000 } }; let c : Cmd := cm 5 65535 [(8,4,10),(9,0,12),(10,0,1522),(12,0,1000),(15,0,3084),(18,0,500)]; let n := objNum c; let i := imageOf c; let r := admTest s (some (n, i)); inStarter s = false ∧ imageBad s i = false ∧ (contr s n).st = .free ∧ Starts s 0x30 useContract c ∧ admBusy s = false ∧ testSteps s (some (n, i)) = 1 ∧ r.reason = 0 ∧ (i.stackMask = 0 ∨ s.stk.st = .distaff ∧ approval s i.stackMask = 0)) ∧
    (let s : State := inst2 ({ portOn wb 12 p2 lineUp { line := { m := 9600 } } with ct := { fabRate := 200000 } }) { stk .distaff with distaff := 2 }; let c : Cmd := cm 5 40 [(8,4,10),(9,0,12),(10,0,1522),(12,0,1000),(15,0,3084),(18,0,500),(28,0,8)]; let n := objNum c; let i := imageOf c; let r := admTest s (some (n, i)); inStarter s = false ∧ imageBad s i = false ∧ (contr s n).st = .free ∧ Starts s 0x30 useContract c ∧ admBusy s = false ∧ testSteps s (some (n, i)) = 1 ∧ r.reason = 0 ∧ (i.stackMask = 0 ∨ s.stk.st = .distaff ∧ approval s i.stackMask = 0)) ∧
    (let s : State := inst2 ({ portOn wb 12 p2 lineUp { line := { m := 9600 } } with ct := { fabRate := 200000 } }) { stk .distaff with distaff := 2, reach := 4 }; let c : Cmd := cm 5 40 [(8,4,10),(9,0,12),(10,0,1522),(12,0,1000),(15,0,3084),(18,0,500),(28,0,8)]; let n := objNum c; let i := imageOf c; let r := admTest s (some (n, i)); inStarter s = false ∧ imageBad s i = false ∧ (contr s n).st = .free ∧ Starts s 0x30 useContract c ∧ admBusy s = false ∧ testSteps s (some (n, i)) = 1 ∧ r.reason = 0 ∧ i.stackMask ≠ 0 ∧ s.stk.st = .distaff ∧ approval s i.stackMask ≠ 0) ∧
    (let s : State := inst2 ({ portOn wb 12 p2 lineUp { line := { m := 9600 } } with ct := { fabRate := 200000 } }) { stk .member with upstream := some (.die 1) }; let c : Cmd := cm 5 40 [(8,4,10),(9,0,12),(10,0,1522),(12,0,1000),(15,0,3084),(18,0,500),(28,0,8)]; let n := objNum c; let i := imageOf c; let r := admTest s (some (n, i)); inStarter s = false ∧ imageBad s i = false ∧ (contr s n).st = .free ∧ Starts s 0x30 useContract c ∧ admBusy s = false ∧ testSteps s (some (n, i)) = 1 ∧ r.reason = 0 ∧ i.stackMask ≠ 0 ∧ s.stk.st ≠ .distaff ∧ canAsk s = true) ∧
    (let s : State := inst2 ({ portOn wb 12 p2 lineUp { line := { m := 9600 } } with ct := { fabRate := 200000 } }) (stk .orphan); let c : Cmd := cm 5 40 [(8,4,10),(9,0,12),(10,0,1522),(12,0,1000),(15,0,3084),(18,0,500),(28,0,8)]; let n := objNum c; let i := imageOf c; let r := admTest s (some (n, i)); inStarter s = false ∧ imageBad s i = false ∧ (contr s n).st = .free ∧ Starts s 0x30 useContract c ∧ admBusy s = false ∧ testSteps s (some (n, i)) = 1 ∧ r.reason = 0 ∧ i.stackMask ≠ 0 ∧ s.stk.st ≠ .distaff ∧ canAsk s = false) ∧
    (let s : State := { ({ portOn wb 12 p2 lineUp { line := { m := 9600 } } with ct := { fabRate := 200000 } }) with sq := { w.sq with admRun := some { ring := 5, result := {}, left := 3 } } }; let c : Cmd := cm 5 65535 [(8,4,10),(9,0,12),(10,0,1522),(12,0,1000),(15,0,3084),(18,0,500)]; let n := objNum c; let i := imageOf c; inStarter s = false ∧ imageBad s i = false ∧ (contr s n).st = .free ∧ Starts s 0x32 useContract c ∧ c.sub = 0 ∧ admBusy s = true) ∧
    (let s : State := { ({ portOn wb 12 p2 lineUp { line := { m := 9600 } } with ct := { fabRate := 200000 } }) with ct := { fabRate := 200000, tab := (List.range 16).map (fun n => (n, { st := .admitted, img := img })) } }; let c : Cmd := cm 5 40 [(8,4,10),(9,0,12),(10,0,1522),(12,0,1000),(15,0,3084),(18,0,500)]; let n := objNum c; let i := imageOf c; inStarter s = false ∧ imageBad s i = false ∧ (contr s n).st = .free ∧ Starts s 0x32 useContract c ∧ c.sub = 0 ∧ admBusy s = false ∧ testSteps s (some (n, i)) ≠ 1) ∧
    (let s : State := { portOn wb 12 p2 lineUp { line := { m := 9600 } } with ct := { fabRate := 200000 } }; let c : Cmd := cm 5 0 [(8,4,10),(9,0,12),(10,0,1522),(12,0,1000),(15,0,3084),(18,0,60)]; let n := objNum c; let i := imageOf c; let r := admTest s (some (n, i)); inStarter s = false ∧ imageBad s i = false ∧ (contr s n).st = .free ∧ Starts s 0x32 useContract c ∧ c.sub = 0 ∧ admBusy s = false ∧ testSteps s (some (n, i)) = 1 ∧ r.reason ≠ 0) ∧
    (let s : State := { portOn wb 12 p2 lineUp { line := { m := 9600 } } with ct := { fabRate := 200000 } }; let c : Cmd := cm 5 65535 [(8,4,10),(9,0,12),(10,0,1522),(12,0,1000),(15,0,3084),(18,0,500)]; let n := objNum c; let i := imageOf c; let r := admTest s (some (n, i)); inStarter s = false ∧ imageBad s i = false ∧ (contr s n).st = .free ∧ Starts s 0x32 useContract c ∧ c.sub = 0 ∧ admBusy s = false ∧ testSteps s (some (n, i)) = 1 ∧ r.reason = 0 ∧ (i.stackMask = 0 ∨ s.stk.st = .distaff ∧ approval s i.stackMask = 0)) ∧
    (let s : State := inst2 ({ portOn wb 12 p2 lineUp { line := { m := 9600 } } with ct := { fabRate := 200000 } }) { stk .distaff with distaff := 2 }; let c : Cmd := cm 5 40 [(8,4,10),(9,0,12),(10,0,1522),(12,0,1000),(15,0,3084),(18,0,500),(28,0,8)]; let n := objNum c; let i := imageOf c; let r := admTest s (some (n, i)); inStarter s = false ∧ imageBad s i = false ∧ (contr s n).st = .free ∧ Starts s 0x32 useContract c ∧ c.sub = 0 ∧ admBusy s = false ∧ testSteps s (some (n, i)) = 1 ∧ r.reason = 0 ∧ (i.stackMask = 0 ∨ s.stk.st = .distaff ∧ approval s i.stackMask = 0)) ∧
    (let s : State := inst2 ({ portOn wb 12 p2 lineUp { line := { m := 9600 } } with ct := { fabRate := 200000 } }) { stk .distaff with distaff := 2, reach := 4 }; let c : Cmd := cm 5 40 [(8,4,10),(9,0,12),(10,0,1522),(12,0,1000),(15,0,3084),(18,0,500),(28,0,8)]; let n := objNum c; let i := imageOf c; let r := admTest s (some (n, i)); inStarter s = false ∧ imageBad s i = false ∧ (contr s n).st = .free ∧ Starts s 0x32 useContract c ∧ c.sub = 0 ∧ admBusy s = false ∧ testSteps s (some (n, i)) = 1 ∧ r.reason = 0 ∧ i.stackMask ≠ 0 ∧ s.stk.st = .distaff ∧ approval s i.stackMask ≠ 0) ∧
    (let s : State := inst2 ({ portOn wb 12 p2 lineUp { line := { m := 9600 } } with ct := { fabRate := 200000 } }) { stk .member with upstream := some (.die 1) }; let c : Cmd := cm 5 40 [(8,4,10),(9,0,12),(10,0,1522),(12,0,1000),(15,0,3084),(18,0,500),(28,0,8)]; let n := objNum c; let i := imageOf c; let r := admTest s (some (n, i)); inStarter s = false ∧ imageBad s i = false ∧ (contr s n).st = .free ∧ Starts s 0x32 useContract c ∧ c.sub = 0 ∧ admBusy s = false ∧ testSteps s (some (n, i)) = 1 ∧ r.reason = 0 ∧ i.stackMask ≠ 0 ∧ s.stk.st ≠ .distaff ∧ canAsk s = true) ∧
    (let s : State := inst2 ({ portOn wb 12 p2 lineUp { line := { m := 9600 } } with ct := { fabRate := 200000 } }) (stk .orphan); let c : Cmd := cm 5 40 [(8,4,10),(9,0,12),(10,0,1522),(12,0,1000),(15,0,3084),(18,0,500),(28,0,8)]; let n := objNum c; let i := imageOf c; let r := admTest s (some (n, i)); inStarter s = false ∧ imageBad s i = false ∧ (contr s n).st = .free ∧ Starts s 0x32 useContract c ∧ c.sub = 0 ∧ admBusy s = false ∧ testSteps s (some (n, i)) = 1 ∧ r.reason = 0 ∧ i.stackMask ≠ 0 ∧ s.stk.st ≠ .distaff ∧ canAsk s = false) ∧
    (let s : State := { (withEntry ({ portOn wb 12 p2 lineUp { line := { m := 9600 } } with ct := { fabRate := 200000 } }) (ent 0x30 (cm 5 40 [(8,4,10),(9,0,12),(10,0,1522),(12,0,1000),(15,0,3084),(18,0,500)]) .ready 8)) with sq := { (withEntry ({ portOn wb 12 p2 lineUp { line := { m := 9600 } } with ct := { fabRate := 200000 } }) (ent 0x30 (cm 5 40 [(8,4,10),(9,0,12),(10,0,1522),(12,0,1000),(15,0,3084),(18,0,500)]) .ready 8)).sq with admRun := some { ring := 0, result := { reason := 0 }, left := 3 } } }; let j : JEntry := ent 0x30 (cm 5 40 [(8,4,10),(9,0,12),(10,0,1522),(12,0,1000),(15,0,3084),(18,0,500)]) .ready 8; let x : AdmRun := { ring := 0, result := { reason := 0 }, left := 3 }; let acked := 0; Takes s acked j ∧ (j.opcode = 0x30 ∨ j.opcode = 0x32 ∧ j.cmd.sub = 0) ∧ j.cond = .ready ∧ j.stage = 8 ∧ s.sq.admRun = some x ∧ 1 < x.left) ∧
    (let s : State := { (withEntry ({ portOn wb 12 p2 lineUp { line := { m := 9600 } } with ct := { fabRate := 200000 } }) (ent 0x30 (cm 5 40 [(8,4,10),(9,0,12),(10,0,1522),(12,0,1000),(15,0,3084),(18,0,500)]) .ready 8)) with sq := { (withEntry ({ portOn wb 12 p2 lineUp { line := { m := 9600 } } with ct := { fabRate := 200000 } }) (ent 0x30 (cm 5 40 [(8,4,10),(9,0,12),(10,0,1522),(12,0,1000),(15,0,3084),(18,0,500)]) .ready 8)).sq with admRun := some { ring := 0, result := { reason := 4 }, left := 1 } } }; let j : JEntry := ent 0x30 (cm 5 40 [(8,4,10),(9,0,12),(10,0,1522),(12,0,1000),(15,0,3084),(18,0,500)]) .ready 8; let x : AdmRun := { ring := 0, result := { reason := 4 }, left := 1 }; let acked := 0; Takes s acked j ∧ (j.opcode = 0x30 ∨ j.opcode = 0x32 ∧ j.cmd.sub = 0) ∧ j.cond = .ready ∧ j.stage = 8 ∧ s.sq.admRun = some x ∧ x.left ≤ 1 ∧ x.result.reason ≠ 0) ∧
    (let s : State := { (withEntry ({ portOn wb 12 p2 lineUp { line := { m := 9600 } } with ct := { fabRate := 200000 } }) (ent 0x30 (cm 5 40 [(8,4,10),(9,0,12),(10,0,1522),(12,0,1000),(15,0,3084),(18,0,500)]) .ready 8)) with sq := { (withEntry ({ portOn wb 12 p2 lineUp { line := { m := 9600 } } with ct := { fabRate := 200000 } }) (ent 0x30 (cm 5 40 [(8,4,10),(9,0,12),(10,0,1522),(12,0,1000),(15,0,3084),(18,0,500)]) .ready 8)).sq with admRun := some { ring := 0, result := { reason := 0 }, left := 1 } } }; let j : JEntry := ent 0x30 (cm 5 40 [(8,4,10),(9,0,12),(10,0,1522),(12,0,1000),(15,0,3084),(18,0,500)]) .ready 8; let x : AdmRun := { ring := 0, result := { reason := 0 }, left := 1 }; let acked := 0; let i := imageOf j.cmd; Takes s acked j ∧ (j.opcode = 0x30 ∨ j.opcode = 0x32 ∧ j.cmd.sub = 0) ∧ j.cond = .ready ∧ j.stage = 8 ∧ s.sq.admRun = some x ∧ x.left ≤ 1 ∧ x.result.reason = 0 ∧ (i.stackMask = 0 ∨ s.stk.st = .distaff ∧ approval s i.stackMask = 0)) ∧
    (let s : State := { (withEntry ({ portOn wb 12 p2 lineUp { line := { m := 9600 } } with ct := { fabRate := 200000 } }) (ent 0x32 (cm 5 40 [(8,4,10),(9,0,12),(10,0,1522),(12,0,1000),(15,0,3084),(18,0,500)]) .ready 8)) with sq := { (withEntry ({ portOn wb 12 p2 lineUp { line := { m := 9600 } } with ct := { fabRate := 200000 } }) (ent 0x32 (cm 5 40 [(8,4,10),(9,0,12),(10,0,1522),(12,0,1000),(15,0,3084),(18,0,500)]) .ready 8)).sq with admRun := some { ring := 0, result := { reason := 0 }, left := 1 } } }; let j : JEntry := ent 0x32 (cm 5 40 [(8,4,10),(9,0,12),(10,0,1522),(12,0,1000),(15,0,3084),(18,0,500)]) .ready 8; let x : AdmRun := { ring := 0, result := { reason := 0 }, left := 1 }; let acked := 0; let i := imageOf j.cmd; Takes s acked j ∧ (j.opcode = 0x30 ∨ j.opcode = 0x32 ∧ j.cmd.sub = 0) ∧ j.cond = .ready ∧ j.stage = 8 ∧ s.sq.admRun = some x ∧ x.left ≤ 1 ∧ x.result.reason = 0 ∧ (i.stackMask = 0 ∨ s.stk.st = .distaff ∧ approval s i.stackMask = 0)) ∧
    (let s : State := { (withEntry (inst2 ({ portOn wb 12 p2 lineUp { line := { m := 9600 } } with ct := { fabRate := 200000 } }) { stk .distaff with distaff := 2 }) (ent 0x30 (cm 5 40 [(8,4,10),(9,0,12),(10,0,1522),(12,0,1000),(15,0,3084),(18,0,500),(28,0,8)]) .ready 8)) with sq := { (withEntry (inst2 ({ portOn wb 12 p2 lineUp { line := { m := 9600 } } with ct := { fabRate := 200000 } }) { stk .distaff with distaff := 2 }) (ent 0x30 (cm 5 40 [(8,4,10),(9,0,12),(10,0,1522),(12,0,1000),(15,0,3084),(18,0,500),(28,0,8)]) .ready 8)).sq with admRun := some { ring := 0, result := { reason := 0 }, left := 1 } } }; let j : JEntry := ent 0x30 (cm 5 40 [(8,4,10),(9,0,12),(10,0,1522),(12,0,1000),(15,0,3084),(18,0,500),(28,0,8)]) .ready 8; let x : AdmRun := { ring := 0, result := { reason := 0 }, left := 1 }; let acked := 0; let i := imageOf j.cmd; Takes s acked j ∧ (j.opcode = 0x30 ∨ j.opcode = 0x32 ∧ j.cmd.sub = 0) ∧ j.cond = .ready ∧ j.stage = 8 ∧ s.sq.admRun = some x ∧ x.left ≤ 1 ∧ x.result.reason = 0 ∧ (i.stackMask = 0 ∨ s.stk.st = .distaff ∧ approval s i.stackMask = 0)) ∧
    (let s : State := withEntry (inst2 ({ portOn wb 12 p2 lineUp { line := { m := 9600 } } with ct := { fabRate := 200000 } }) { stk .member with upstream := some (.die 1), reply := [(0, some (.answered 0))] }) ({ ent 0x30 (cm 5 40 [(8,4,10),(9,0,12),(10,0,1522),(12,0,1000),(15,0,3084),(18,0,500),(28,0,8)]) (.stackReply 0) with scratch := [77] }); let j : JEntry := { ent 0x30 (cm 5 40 [(8,4,10),(9,0,12),(10,0,1522),(12,0,1000),(15,0,3084),(18,0,500),(28,0,8)]) (.stackReply 0) with scratch := [77] }; let acked := 0; Takes s acked j ∧ (j.opcode = 0x30 ∨ j.opcode = 0x32 ∧ j.cmd.sub = 0) ∧ j.stage = 1 ∧ j.cond = .stackReply j.ring ∧ tget none s.stk.reply j.ring = some (.answered 0)) ∧
    (let s : State := withEntry (inst2 ({ portOn wb 12 p2 lineUp { line := { m := 9600 } } with ct := { fabRate := 200000 } }) { stk .member with upstream := some (.die 1), reply := [(0, some (.answered 0))] }) ({ ent 0x32 (cm 5 40 [(8,4,10),(9,0,12),(10,0,1522),(12,0,1000),(15,0,3084),(18,0,500),(28,0,8)]) (.stackReply 0) with scratch := [77] }); let j : JEntry := { ent 0x32 (cm 5 40 [(8,4,10),(9,0,12),(10,0,1522),(12,0,1000),(15,0,3084),(18,0,500),(28,0,8)]) (.stackReply 0) with scratch := [77] }; let acked := 0; Takes s acked j ∧ (j.opcode = 0x30 ∨ j.opcode = 0x32 ∧ j.cmd.sub = 0) ∧ j.stage = 1 ∧ j.cond = .stackReply j.ring ∧ tget none s.stk.reply j.ring = some (.answered 0)) ∧
    (let s : State := withEntry (inst2 ({ portOn wb 12 p2 lineUp { line := { m := 9600 } } with ct := { fabRate := 200000 } }) { stk .member with upstream := some (.die 1), reply := [(0, some (.answered 2))] }) ({ ent 0x30 (cm 5 40 [(8,4,10),(9,0,12),(10,0,1522),(12,0,1000),(15,0,3084),(18,0,500),(28,0,8)]) (.stackReply 0) with scratch := [77] }); let j : JEntry := { ent 0x30 (cm 5 40 [(8,4,10),(9,0,12),(10,0,1522),(12,0,1000),(15,0,3084),(18,0,500),(28,0,8)]) (.stackReply 0) with scratch := [77] }; let acked := 0; let a := 2; Takes s acked j ∧ (j.opcode = 0x30 ∨ j.opcode = 0x32 ∧ j.cmd.sub = 0) ∧ j.stage = 1 ∧ j.cond = .stackReply j.ring ∧ a ≠ 0 ∧ tget none s.stk.reply j.ring = some (.answered a)) ∧
    (let s : State := withEntry (inst2 ({ portOn wb 12 p2 lineUp { line := { m := 9600 } } with ct := { fabRate := 200000 } }) { stk .member with upstream := some (.die 1), reply := [(0, some .timeout)] }) ({ ent 0x30 (cm 5 40 [(8,4,10),(9,0,12),(10,0,1522),(12,0,1000),(15,0,3084),(18,0,500),(28,0,8)]) (.stackReply 0) with scratch := [77] }); let j : JEntry := { ent 0x30 (cm 5 40 [(8,4,10),(9,0,12),(10,0,1522),(12,0,1000),(15,0,3084),(18,0,500),(28,0,8)]) (.stackReply 0) with scratch := [77] }; let acked := 0; Takes s acked j ∧ (j.opcode = 0x30 ∨ j.opcode = 0x32 ∧ j.cmd.sub = 0) ∧ j.stage = 1 ∧ j.cond = .stackReply j.ring ∧ (tget none s.stk.reply j.ring = some .timeout ∨ tget none s.stk.reply j.ring = none)) ∧
    (let s : State := withEntry (inst2 ({ portOn wb 12 p2 lineUp { line := { m := 9600 } } with ct := { fabRate := 200000 } }) { stk .member with upstream := some (.die 1), reply := [(0, none)] }) ({ ent 0x30 (cm 5 40 [(8,4,10),(9,0,12),(10,0,1522),(12,0,1000),(15,0,3084),(18,0,500),(28,0,8)]) (.stackReply 0) with scratch := [77] }); let j : JEntry := { ent 0x30 (cm 5 40 [(8,4,10),(9,0,12),(10,0,1522),(12,0,1000),(15,0,3084),(18,0,500),(28,0,8)]) (.stackReply 0) with scratch := [77] }; let acked := 0; Takes s acked j ∧ (j.opcode = 0x30 ∨ j.opcode = 0x32 ∧ j.cmd.sub = 0) ∧ j.stage = 1 ∧ j.cond = .stackReply j.ring ∧ (tget none s.stk.reply j.ring = some .timeout ∨ tget none s.stk.reply j.ring = none)) := ⟨by simp only [starts_iff]; decide +kernel, by simp only [starts_iff]; decide +kernel, by simp only [starts_iff]; decide +kernel, by simp only [starts_iff]; decide +kernel, by simp only [starts_iff]; decide +kernel, by simp only [starts_iff]; decide +kernel, by simp only [starts_iff]; decide +kernel, by simp only [starts_iff]; decide +kernel, by simp only [starts_iff]; decide +kernel, by simp only [starts_iff]; decide +kernel, by simp only [starts_iff]; decide +kernel, by simp only [starts_iff]; decide +kernel, by simp only [starts_iff]; decide +kernel, by simp only [starts_iff]; decide +kernel, by simp only [starts_iff]; decide +kernel, by simp only [starts_iff]; decide +kernel, by simp only [takes_iff]; decide +kernel, by simp only [takes_iff]; decide +kernel, by simp only [takes_iff]; decide +kernel, by simp only [takes_iff]; decide +kernel, by simp only [takes_iff]; decide +kernel, by simp only [takes_iff]; decide +kernel, by simp only [takes_iff]; decide +kernel, by simp only [takes_iff]; decide +kernel, by simp only [takes_iff]; decide +kernel, by simp only [takes_iff]; decide +kernel⟩
theorem wit_ContractWithdrawAndAmend :
    (let s : State := withFrame wc { frm with origin := .accepted, contract := 40 }; let c : Cmd := cm 5 40 []; let n := objNum c; let C := contr s n; Starts s 0x31 useNone c ∧ C.st = .admitted ∧ ctInFlight s n none = true) ∧
    (let s : State := withFrame ({ withBob wc 100 { bobn wc 100 with cstate := .bound, contract := 40 } with ct := { fabRate := 200000, tab := [(40, { st := .admitted, img := img, bobbin := some 100 })] } }) { frm with origin := .accepted, contract := 40 }; let c : Cmd := cm 5 40 []; let n := objNum c; let C := contr s n; Starts s 0x31 useNone c ∧ C.st = .admitted ∧ ctInFlight s n none = true) ∧
    (let s : State := wc; let c : Cmd := cm 5 40 []; let n := objNum c; let C := contr s n; Starts s 0x31 useNone c ∧ C.st = .admitted ∧ ctInFlight s n none = false) ∧
    (let s : State := { withBob wc 100 { bobn wc 100 with cstate := .bound, contract := 40 } with ct := { fabRate := 200000, tab := [(40, { st := .admitted, img := img, bobbin := some 100 })] } }; let c : Cmd := cm 5 40 []; let n := objNum c; let C := contr s n; Starts s 0x31 useNone c ∧ C.st = .admitted ∧ ctInFlight s n none = false) ∧
    (let s : State := wc; let c : Cmd := cm 5 40 [(8,4,10),(9,0,12),(10,0,1522),(12,0,1000),(15,0,3084),(18,0,500)]; let n := objNum c; let C := contr s n; Starts s 0x33 useContractAmend c ∧ objKind c ≠ 0 ∧ inStarter s = false ∧ C.st = .admitted ∧ imageBad s (imageOf c) = false ∧ amendBad C (imageOf c) = false ∧ imageOf c = C.img) ∧
    (let s : State := { (wc) with sq := { w.sq with admRun := some { ring := 5, result := {}, left := 3 } } }; let c : Cmd := cm 5 40 [(8,4,10),(9,0,12),(10,0,1522),(12,0,1000),(15,0,3084),(18,0,600)]; let n := objNum c; let C := contr s n; Starts s 0x33 useContractAmend c ∧ objKind c ≠ 0 ∧ inStarter s = false ∧ C.st = .admitted ∧ imageBad s (imageOf c) = false ∧ amendBad C (imageOf c) = false ∧ imageOf c ≠ C.img ∧ admBusy s = true) ∧
    (let s : State := { wc with ct := { fabRate := 200000, tab := (List.range 41).map (fun n => (n, { st := .admitted, img := img })) } }; let c : Cmd := cm 5 40 [(8,4,10),(9,0,12),(10,0,1522),(12,0,1000),(15,0,3084),(18,0,600)]; let n := objNum c; let C := contr s n; let i := transOf C (imageOf c); Starts s 0x33 useContractAmend c ∧ objKind c ≠ 0 ∧ inStarter s = false ∧ C.st = .admitted ∧ imageBad s (imageOf c) = false ∧ amendBad C (imageOf c) = false ∧ imageOf c ≠ C.img ∧ admBusy s = false ∧ testSteps s (some (n, i)) ≠ 1) ∧
    (let s : State := { wc with ct := { wc.ct with fabRate := 1 } }; let c : Cmd := cm 5 40 [(8,4,10),(9,0,12),(10,0,1522),(12,0,1000),(15,0,3084),(18,0,600)]; let n := objNum c; let C := contr s n; let i := transOf C (imageOf c); let r := admTest s (some (n, i)); Starts s 0x33 useContractAmend c ∧ objKind c ≠ 0 ∧ inStarter s = false ∧ C.st = .admitted ∧ imageBad s (imageOf c) = false ∧ amendBad C (imageOf c) = false ∧ imageOf c ≠ C.img ∧ admBusy s = false ∧ testSteps s (some (n, i)) = 1 ∧ r.reason ≠ 0) ∧
    (let s : State := wc; let c : Cmd := cm 5 40 [(8,4,10),(9,0,12),(10,0,1522),(12,0,1000),(15,0,3084),(18,0,600)]; let n := objNum c; let C := contr s n; let i := transOf C (imageOf c); let r := admTest s (some (n, i)); Starts s 0x33 useContractAmend c ∧ objKind c ≠ 0 ∧ inStarter s = false ∧ C.st = .admitted ∧ imageBad s (imageOf c) = false ∧ amendBad C (imageOf c) = false ∧ imageOf c ≠ C.img ∧ admBusy s = false ∧ testSteps s (some (n, i)) = 1 ∧ r.reason = 0 ∧ (i.stackMask = 0 ∨ s.stk.st = .distaff ∧ approval s i.stackMask = 0)) ∧
    (let s : State := inst2 { wc with ct := { fabRate := 200000, tab := [(40, { st := .admitted, img := { img with stackMask := 8 } })] } } { stk .distaff with distaff := 2 }; let c : Cmd := cm 5 40 [(8,4,10),(9,0,12),(10,0,1522),(12,0,1000),(15,0,3084),(18,0,600),(28,0,8)]; let n := objNum c; let C := contr s n; let i := transOf C (imageOf c); let r := admTest s (some (n, i)); Starts s 0x33 useContractAmend c ∧ objKind c ≠ 0 ∧ inStarter s = false ∧ C.st = .admitted ∧ imageBad s (imageOf c) = false ∧ amendBad C (imageOf c) = false ∧ imageOf c ≠ C.img ∧ admBusy s = false ∧ testSteps s (some (n, i)) = 1 ∧ r.reason = 0 ∧ (i.stackMask = 0 ∨ s.stk.st = .distaff ∧ approval s i.stackMask = 0)) ∧
    (let s : State := inst2 { wc with ct := { fabRate := 200000, tab := [(40, { st := .admitted, img := { img with stackMask := 8 } })] } } { stk .distaff with distaff := 2, reach := 4 }; let c : Cmd := cm 5 40 [(8,4,10),(9,0,12),(10,0,1522),(12,0,1000),(15,0,3084),(18,0,600),(28,0,8)]; let n := objNum c; let C := contr s n; let i := transOf C (imageOf c); let r := admTest s (some (n, i)); Starts s 0x33 useContractAmend c ∧ objKind c ≠ 0 ∧ inStarter s = false ∧ C.st = .admitted ∧ imageBad s (imageOf c) = false ∧ amendBad C (imageOf c) = false ∧ imageOf c ≠ C.img ∧ admBusy s = false ∧ testSteps s (some (n, i)) = 1 ∧ r.reason = 0 ∧ i.stackMask ≠ 0 ∧ s.stk.st = .distaff ∧ approval s i.stackMask ≠ 0) ∧
    (let s : State := inst2 { wc with ct := { fabRate := 200000, tab := [(40, { st := .admitted, img := { img with stackMask := 8 } })] } } { stk .member with upstream := some (.die 1) }; let c : Cmd := cm 5 40 [(8,4,10),(9,0,12),(10,0,1522),(12,0,1000),(15,0,3084),(18,0,600),(28,0,8)]; let n := objNum c; let C := contr s n; let i := transOf C (imageOf c); let r := admTest s (some (n, i)); Starts s 0x33 useContractAmend c ∧ objKind c ≠ 0 ∧ inStarter s = false ∧ C.st = .admitted ∧ imageBad s (imageOf c) = false ∧ amendBad C (imageOf c) = false ∧ imageOf c ≠ C.img ∧ admBusy s = false ∧ testSteps s (some (n, i)) = 1 ∧ r.reason = 0 ∧ i.stackMask ≠ 0 ∧ s.stk.st ≠ .distaff ∧ canAsk s = true) ∧
    (let s : State := inst2 { wc with ct := { fabRate := 200000, tab := [(40, { st := .admitted, img := { img with stackMask := 8 } })] } } { stk .orphan with gen := 5 }; let c : Cmd := cm 5 40 [(8,4,10),(9,0,12),(10,0,1522),(12,0,1000),(15,0,3084),(18,0,600),(28,0,8)]; let n := objNum c; let C := contr s n; let i := transOf C (imageOf c); let r := admTest s (some (n, i)); Starts s 0x33 useContractAmend c ∧ objKind c ≠ 0 ∧ inStarter s = false ∧ C.st = .admitted ∧ imageBad s (imageOf c) = false ∧ amendBad C (imageOf c) = false ∧ imageOf c ≠ C.img ∧ admBusy s = false ∧ testSteps s (some (n, i)) = 1 ∧ r.reason = 0 ∧ i.stackMask ≠ 0 ∧ s.stk.st ≠ .distaff ∧ canAsk s = false) ∧
    (let s : State := wc; let c : Cmd := cm 5 40 [(8,4,10),(9,0,12),(10,0,1522),(12,0,1000),(15,0,3084),(18,0,500)] 1; let n := objNum c; let C := contr s n; Starts s 0x32 useContract c ∧ c.sub = 1 ∧ inStarter s = false ∧ C.st = .admitted ∧ imageBad s (imageOf c) = false ∧ amendBad C (imageOf c) = false ∧ imageOf c = C.img) ∧
    (let s : State := { (wc) with sq := { w.sq with admRun := some { ring := 5, result := {}, left := 3 } } }; let c : Cmd := cm 5 40 [(8,4,10),(9,0,12),(10,0,1522),(12,0,1000),(15,0,3084),(18,0,600)] 1; let n := objNum c; let C := contr s n; Starts s 0x32 useContract c ∧ c.sub = 1 ∧ inStarter s = false ∧ C.st = .admitted ∧ imageBad s (imageOf c) = false ∧ amendBad C (imageOf c) = false ∧ imageOf c ≠ C.img ∧ admBusy s = true) ∧
    (let s : State := { wc with ct := { fabRate := 200000, tab := (List.range 41).map (fun n => (n, { st := .admitted, img := img })) } }; let c : Cmd := cm 5 40 [(8,4,10),(9,0,12),(10,0,1522),(12,0,1000),(15,0,3084),(18,0,600)] 1; let n := objNum c; let C := contr s n; let i := transOf C (imageOf c); Starts s 0x32 useContract c ∧ c.sub = 1 ∧ inStarter s = false ∧ C.st = .admitted ∧ imageBad s (imageOf c) = false ∧ amendBad C (imageOf c) = false ∧ imageOf c ≠ C.img ∧ admBusy s = false ∧ testSteps s (some (n, i)) ≠ 1) ∧
    (let s : State := { wc with ct := { wc.ct with fabRate := 1 } }; let c : Cmd := cm 5 40 [(8,4,10),(9,0,12),(10,0,1522),(12,0,1000),(15,0,3084),(18,0,600)] 1; let n := objNum c; let C := contr s n; let i := transOf C (imageOf c); let r := admTest s (some (n, i)); Starts s 0x32 useContract c ∧ c.sub = 1 ∧ inStarter s = false ∧ C.st = .admitted ∧ imageBad s (imageOf c) = false ∧ amendBad C (imageOf c) = false ∧ imageOf c ≠ C.img ∧ admBusy s = false ∧ testSteps s (some (n, i)) = 1 ∧ r.reason ≠ 0) ∧
    (let s : State := wc; let c : Cmd := cm 5 40 [(8,4,10),(9,0,12),(10,0,1522),(12,0,1000),(15,0,3084),(18,0,600)] 1; let n := objNum c; let C := contr s n; let i := transOf C (imageOf c); let r := admTest s (some (n, i)); Starts s 0x32 useContract c ∧ c.sub = 1 ∧ inStarter s = false ∧ C.st = .admitted ∧ imageBad s (imageOf c) = false ∧ amendBad C (imageOf c) = false ∧ imageOf c ≠ C.img ∧ admBusy s = false ∧ testSteps s (some (n, i)) = 1 ∧ r.reason = 0 ∧ (i.stackMask = 0 ∨ s.stk.st = .distaff ∧ approval s i.stackMask = 0)) ∧
    (let s : State := inst2 { wc with ct := { fabRate := 200000, tab := [(40, { st := .admitted, img := { img with stackMask := 8 } })] } } { stk .distaff with distaff := 2 }; let c : Cmd := cm 5 40 [(8,4,10),(9,0,12),(10,0,1522),(12,0,1000),(15,0,3084),(18,0,600),(28,0,8)] 1; let n := objNum c; let C := contr s n; let i := transOf C (imageOf c); let r := admTest s (some (n, i)); Starts s 0x32 useContract c ∧ c.sub = 1 ∧ inStarter s = false ∧ C.st = .admitted ∧ imageBad s (imageOf c) = false ∧ amendBad C (imageOf c) = false ∧ imageOf c ≠ C.img ∧ admBusy s = false ∧ testSteps s (some (n, i)) = 1 ∧ r.reason = 0 ∧ (i.stackMask = 0 ∨ s.stk.st = .distaff ∧ approval s i.stackMask = 0)) ∧
    (let s : State := inst2 { wc with ct := { fabRate := 200000, tab := [(40, { st := .admitted, img := { img with stackMask := 8 } })] } } { stk .distaff with distaff := 2, reach := 4 }; let c : Cmd := cm 5 40 [(8,4,10),(9,0,12),(10,0,1522),(12,0,1000),(15,0,3084),(18,0,600),(28,0,8)] 1; let n := objNum c; let C := contr s n; let i := transOf C (imageOf c); let r := admTest s (some (n, i)); Starts s 0x32 useContract c ∧ c.sub = 1 ∧ inStarter s = false ∧ C.st = .admitted ∧ imageBad s (imageOf c) = false ∧ amendBad C (imageOf c) = false ∧ imageOf c ≠ C.img ∧ admBusy s = false ∧ testSteps s (some (n, i)) = 1 ∧ r.reason = 0 ∧ i.stackMask ≠ 0 ∧ s.stk.st = .distaff ∧ approval s i.stackMask ≠ 0) ∧
    (let s : State := inst2 { wc with ct := { fabRate := 200000, tab := [(40, { st := .admitted, img := { img with stackMask := 8 } })] } } { stk .member with upstream := some (.die 1) }; let c : Cmd := cm 5 40 [(8,4,10),(9,0,12),(10,0,1522),(12,0,1000),(15,0,3084),(18,0,600),(28,0,8)] 1; let n := objNum c; let C := contr s n; let i := transOf C (imageOf c); let r := admTest s (some (n, i)); Starts s 0x32 useContract c ∧ c.sub = 1 ∧ inStarter s = false ∧ C.st = .admitted ∧ imageBad s (imageOf c) = false ∧ amendBad C (imageOf c) = false ∧ imageOf c ≠ C.img ∧ admBusy s = false ∧ testSteps s (some (n, i)) = 1 ∧ r.reason = 0 ∧ i.stackMask ≠ 0 ∧ s.stk.st ≠ .distaff ∧ canAsk s = true) ∧
    (let s : State := inst2 { wc with ct := { fabRate := 200000, tab := [(40, { st := .admitted, img := { img with stackMask := 8 } })] } } { stk .orphan with gen := 5 }; let c : Cmd := cm 5 40 [(8,4,10),(9,0,12),(10,0,1522),(12,0,1000),(15,0,3084),(18,0,600),(28,0,8)] 1; let n := objNum c; let C := contr s n; let i := transOf C (imageOf c); let r := admTest s (some (n, i)); Starts s 0x32 useContract c ∧ c.sub = 1 ∧ inStarter s = false ∧ C.st = .admitted ∧ imageBad s (imageOf c) = false ∧ amendBad C (imageOf c) = false ∧ imageOf c ≠ C.img ∧ admBusy s = false ∧ testSteps s (some (n, i)) = 1 ∧ r.reason = 0 ∧ i.stackMask ≠ 0 ∧ s.stk.st ≠ .distaff ∧ canAsk s = false) := by refine ⟨?_, ?_, ?_, ?_, ?_, ?_, ?_, ?_, ?_, ?_, ?_, ?_, ?_, ?_, ?_, ?_, ?_, ?_, ?_, ?_, ?_, ?_⟩ <;> (simp only [starts_iff]; decide +kernel)
theorem wit_FabRateAndStream :
    (let s : State := wc; let c : Cmd := cm 0 0 [(8,0,200000)] 1; let k := asObj c 0 0 1; Starts s 0x33 useContractAmend k ∧ inStarter s = false ∧ fld c 8 0 22 ≤ 3200000 ∧ fld c 8 0 22 = s.ct.fabRate) ∧
    (let s : State := { (wc) with sq := { w.sq with admRun := some { ring := 5, result := {}, left := 3 } } }; let c : Cmd := cm 0 0 [(8,0,100000)] 1; let k := asObj c 0 0 1; Starts s 0x33 useContractAmend k ∧ inStarter s = false ∧ fld c 8 0 22 ≤ 3200000 ∧ fld c 8 0 22 ≠ s.ct.fabRate ∧ admBusy s = true) ∧
    (let s : State := wc; let c : Cmd := cm 0 0 [(8,0,100000)] 1; let k := asObj c 0 0 1; let u := { s with ct := { s.ct with fabRate := fld c 8 0 22 } }; Starts s 0x33 useContractAmend k ∧ inStarter s = false ∧ fld c 8 0 22 ≤ 3200000 ∧ fld c 8 0 22 ≠ s.ct.fabRate ∧ admBusy s = false ∧ testSteps u none = 1) ∧
    (let s : State := wc; let c : Cmd := cm 0 0 [(8,0,1)] 1; let k := asObj c 0 0 1; let u := { s with ct := { s.ct with fabRate := fld c 8 0 22 } }; Starts s 0x33 useContractAmend k ∧ inStarter s = false ∧ fld c 8 0 22 ≤ 3200000 ∧ fld c 8 0 22 ≠ s.ct.fabRate ∧ admBusy s = false ∧ testSteps u none = 1) ∧
    (let s : State := w; let c : Cmd := cm 0 0 [(8,0,3200000)] 1; let k := asObj c 0 0 1; let u := { s with ct := { s.ct with fabRate := fld c 8 0 22 } }; Starts s 0x33 useContractAmend k ∧ inStarter s = false ∧ fld c 8 0 22 ≤ 3200000 ∧ fld c 8 0 22 ≠ s.ct.fabRate ∧ admBusy s = false ∧ testSteps u none = 1) ∧
    (let s : State := { ({ portOn wb 12 p2 lineUp { line := { m := 9600 } } with ct := { fabRate := 200000 } }) with ct := { fabRate := 200000, tab := (List.range 16).map (fun n => (n, { st := .admitted, img := img })) } }; let c : Cmd := cm 0 0 [(8,0,100000)] 1; let k := asObj c 0 0 1; let u := { s with ct := { s.ct with fabRate := fld c 8 0 22 } }; Starts s 0x33 useContractAmend k ∧ inStarter s = false ∧ fld c 8 0 22 ≤ 3200000 ∧ fld c 8 0 22 ≠ s.ct.fabRate ∧ admBusy s = false ∧ testSteps u none ≠ 1) ∧
    (let s : State := { (withEntry wc (ent 0x33 (cm 0 0 [(8,0,5)] 1) .ready 8)) with sq := { (withEntry wc (ent 0x33 (cm 0 0 [(8,0,5)] 1) .ready 8)).sq with admRun := some { ring := 0, result := { reason := 0 }, left := 1 } } }; let j : JEntry := ent 0x33 (cm 0 0 [(8,0,5)] 1) .ready 8; let x : AdmRun := { ring := 0, result := { reason := 0 }, left := 1 }; let acked := 0; Takes s acked j ∧ j.opcode = 0x33 ∧ objKind j.cmd = 0 ∧ j.cond = .ready ∧ j.stage = 8 ∧ s.sq.admRun = some x ∧ x.left ≤ 1) ∧
    (let s : State := { (withEntry wc (ent 0x33 (cm 0 0 [(8,0,5)] 1) .ready 8)) with sq := { (withEntry wc (ent 0x33 (cm 0 0 [(8,0,5)] 1) .ready 8)).sq with admRun := some { ring := 0, result := { reason := 4 }, left := 1 } } }; let j : JEntry := ent 0x33 (cm 0 0 [(8,0,5)] 1) .ready 8; let x : AdmRun := { ring := 0, result := { reason := 4 }, left := 1 }; let acked := 0; Takes s acked j ∧ j.opcode = 0x33 ∧ objKind j.cmd = 0 ∧ j.cond = .ready ∧ j.stage = 8 ∧ s.sq.admRun = some x ∧ x.left ≤ 1) ∧
    (let s : State := strTaken 9; let c : Cmd := cm 7 7 [(8,0,1),(8,2,1),(8,4,1),(8,6,1),(9,0,64),(10,0,1000),(12,0,0xBEEF),(14,0,5),(16,0,0x010203040506)]; let n := objNum c; let e := strm s n; let X : StreamEntry := { e with genEn := fbit c 8 0, genDesc := fbit c 8 1, recEn := fbit c 8 2, algMatch := fbit c 8 3, idKind := fld c 8 4 2, histLen := fld c 9 0 7, resetMs := fld c 10 0 10, genSeq := if fbit c 8 6 then BitVec.ofNat 16 (fld c 12 0 16) else e.genSeq, idVid := fld c 14 0 12, idAddr := fmac c 16 }; let m := 9; Starts s 0x34 useStreamSet c ∧ 1 ≤ X.histLen ∧ X.histLen ≤ 64 ∧ 1 ≤ X.resetMs ∧ X.resetMs ≤ 1000 ∧ X.idKind ≠ 3 ∧ (X.idVid ≠ 0 → X.idKind = 1) ∧ (e.genEn = true → X.genEn = false → profileNames s n = false) ∧ X.idKind ≠ 0 ∧ findStream s (ownKey X) = some m ∧ m ≠ n) ∧
    (let s : State := strFull; let c : Cmd := cm 7 7 [(8,0,1),(8,2,1),(8,4,1),(8,6,1),(9,0,64),(10,0,1000),(12,0,0xBEEF),(14,0,5),(16,0,0x010203040506)]; let n := objNum c; let e := strm s n; let X : StreamEntry := { e with genEn := fbit c 8 0, genDesc := fbit c 8 1, recEn := fbit c 8 2, algMatch := fbit c 8 3, idKind := fld c 8 4 2, histLen := fld c 9 0 7, resetMs := fld c 10 0 10, genSeq := if fbit c 8 6 then BitVec.ofNat 16 (fld c 12 0 16) else e.genSeq, idVid := fld c 14 0 12, idAddr := fmac c 16 }; Starts s 0x34 useStreamSet c ∧ 1 ≤ X.histLen ∧ X.histLen ≤ 64 ∧ 1 ≤ X.resetMs ∧ X.resetMs ≤ 1000 ∧ X.idKind ≠ 3 ∧ (X.idVid ≠ 0 → X.idKind = 1) ∧ (e.genEn = true → X.genEn = false → profileNames s n = false) ∧ X.idKind ≠ 0 ∧ (findStream s (ownKey X) = none ∨ findStream s (ownKey X) = some n) ∧ takeSlot s n (ownKey X) = none) ∧
    (let s : State := w; let c : Cmd := cm 7 16383 [(8,0,1),(8,2,1),(8,4,1),(8,6,1),(9,0,64),(10,0,1000),(12,0,0xBEEF),(14,0,5),(16,0,0x010203040506)]; let n := objNum c; let e := strm s n; let X : StreamEntry := { e with genEn := fbit c 8 0, genDesc := fbit c 8 1, recEn := fbit c 8 2, algMatch := fbit c 8 3, idKind := fld c 8 4 2, histLen := fld c 9 0 7, resetMs := fld c 10 0 10, genSeq := if fbit c 8 6 then BitVec.ofNat 16 (fld c 12 0 16) else e.genSeq, idVid := fld c 14 0 12, idAddr := fmac c 16 }; Starts s 0x34 useStreamSet c ∧ 1 ≤ X.histLen ∧ X.histLen ≤ 64 ∧ 1 ≤ X.resetMs ∧ X.resetMs ≤ 1000 ∧ X.idKind ≠ 3 ∧ (X.idVid ≠ 0 → X.idKind = 1) ∧ (e.genEn = true → X.genEn = false → profileNames s n = false) ∧ (X.idKind ≠ 0 → (findStream s (ownKey X) = none ∨ findStream s (ownKey X) = some n) ∧ (takeSlot s n (ownKey X)).isSome = true)) ∧
    (let s : State := w; let c : Cmd := cm 7 16383 [(8,0,1),(8,2,1),(8,6,1),(9,0,64),(10,0,1000),(12,0,0xBEEF)]; let n := objNum c; let e := strm s n; let X : StreamEntry := { e with genEn := fbit c 8 0, genDesc := fbit c 8 1, recEn := fbit c 8 2, algMatch := fbit c 8 3, idKind := fld c 8 4 2, histLen := fld c 9 0 7, resetMs := fld c 10 0 10, genSeq := if fbit c 8 6 then BitVec.ofNat 16 (fld c 12 0 16) else e.genSeq, idVid := fld c 14 0 12, idAddr := fmac c 16 }; Starts s 0x34 useStreamSet c ∧ 1 ≤ X.histLen ∧ X.histLen ≤ 64 ∧ 1 ≤ X.resetMs ∧ X.resetMs ≤ 1000 ∧ X.idKind ≠ 3 ∧ (X.idVid ≠ 0 → X.idKind = 1) ∧ (e.genEn = true → X.genEn = false → profileNames s n = false) ∧ (X.idKind ≠ 0 → (findStream s (ownKey X) = none ∨ findStream s (ownKey X) = some n) ∧ (takeSlot s n (ownKey X)).isSome = true)) ∧
    (let s : State := w; let c : Cmd := cm 7 0 [(8,0,1),(9,0,1),(10,0,1)]; let n := objNum c; let e := strm s n; let X : StreamEntry := { e with genEn := fbit c 8 0, genDesc := fbit c 8 1, recEn := fbit c 8 2, algMatch := fbit c 8 3, idKind := fld c 8 4 2, histLen := fld c 9 0 7, resetMs := fld c 10 0 10, genSeq := if fbit c 8 6 then BitVec.ofNat 16 (fld c 12 0 16) else e.genSeq, idVid := fld c 14 0 12, idAddr := fmac c 16 }; Starts s 0x34 useStreamSet c ∧ 1 ≤ X.histLen ∧ X.histLen ≤ 64 ∧ 1 ≤ X.resetMs ∧ X.resetMs ≤ 1000 ∧ X.idKind ≠ 3 ∧ (X.idVid ≠ 0 → X.idKind = 1) ∧ (e.genEn = true → X.genEn = false → profileNames s n = false) ∧ (X.idKind ≠ 0 → (findStream s (ownKey X) = none ∨ findStream s (ownKey X) = some n) ∧ (takeSlot s n (ownKey X)).isSome = true)) := ⟨by simp only [starts_iff]; decide +kernel, by simp only [starts_iff]; decide +kernel, by simp only [starts_iff]; decide +kernel, by simp only [starts_iff]; decide +kernel, by simp only [starts_iff]; decide +kernel, by simp only [starts_iff]; decide +kernel, by simp only [takes_iff]; decide +kernel, by simp only [takes_iff]; decide +kernel, by simp only [starts_iff]; decide +kernel, by simp only [starts_iff]; decide +kernel, by simp only [starts_iff]; decide +kernel, by simp only [starts_iff]; decide +kernel, by simp only [starts_iff]; decide +kernel⟩
theorem wit_ReadWritesTheImage :
    (let s : State := wb; let c : Cmd := { cm 3 100 [(8,0,0x100000),(16,0,1)] with writeAck := some false }; let o := readImage (started s 0x04 c) (objKind c) (objNum c) c.sub.toNat; let a := fld c 8 0 64; Starts s 0x04 useRead c ∧ a % 8 = 0 ∧ bufOk s c a (fld c 16 0 8) o.length = true ∧ c.writeAck = some false) ∧
    (let s : State := wb; let c : Cmd := { cm 1 12 [(8,0,0x10FE00),(16,0,1)] with writeAck := some false }; let o := readImage (started s 0x04 c) (objKind c) (objNum c) c.sub.toNat; let a := fld c 8 0 64; Starts s 0x04 useRead c ∧ a % 8 = 0 ∧ bufOk s c a (fld c 16 0 8) o.length = true ∧ c.writeAck = some false) ∧
    (let s : State := wb; let c : Cmd := { cm 3 100 [(8,0,0x100000),(16,0,1)] with writeAck := none }; let o := readImage (started s 0x04 c) (objKind c) (objNum c) c.sub.toNat; let a := fld c 8 0 64; Starts s 0x04 useRead c ∧ a % 8 = 0 ∧ bufOk s c a (fld c 16 0 8) o.length = true ∧ c.writeAck = none) ∧
    (let s : State := wb; let c : Cmd := { cm 3 100 [(8,0,0x100000),(16,0,1)] with writeAck := some true }; let o := readImage (started s 0x04 c) (objKind c) (objNum c) c.sub.toNat; let a := fld c 8 0 64; Starts s 0x04 useRead c ∧ a % 8 = 0 ∧ bufOk s c a (fld c 16 0 8) o.length = true ∧ c.writeAck = some true) := by refine ⟨?_, ?_, ?_, ?_⟩ <;> (simp only [starts_iff]; decide +kernel)
theorem wit_TemplatesAndRules :
    (let s : State := w; let c : Cmd := cm 8 255 [(8,0,0x100040),(16,0,1)]; let a := fld c 8 0 64; let w := fld c 16 0 8; Starts s 0x40 useTemplateWrite c ∧ a % 64 = 0 ∧ bufOk s c a w 64 = true ∧ c.reads = []) ∧
    (let s : State := w; let c : Cmd := { cm 8 255 [(8,0,0x100040),(16,0,1)] with reads := [{ error := true }] }; let a := fld c 8 0 64; let w := fld c 16 0 8; let r := { error := true }; let l := []; let T := BitVec.ofNat 512 (ofLe ((r.data ++ List.replicate 64 0).take 64)); Starts s 0x40 useTemplateWrite c ∧ a % 64 = 0 ∧ bufOk s c a w 64 = true ∧ c.reads = r :: l ∧ (r.error = true ∨ templateOk T = false)) ∧
    (let s : State := w; let c : Cmd := { cm 8 255 [(8,0,0x100040),(16,0,1)] with reads := [{ data := List.replicate 64 255 }] }; let a := fld c 8 0 64; let w := fld c 16 0 8; let r := { data := List.replicate 64 255 }; let l := []; let T := BitVec.ofNat 512 (ofLe ((r.data ++ List.replicate 64 0).take 64)); Starts s 0x40 useTemplateWrite c ∧ a % 64 = 0 ∧ bufOk s c a w 64 = true ∧ c.reads = r :: l ∧ (r.error = true ∨ templateOk T = false)) ∧
    (let s : State := w; let c : Cmd := { cm 8 255 [(8,0,0x100040),(16,0,1)] with reads := [{}] }; let a := fld c 8 0 64; let w := fld c 16 0 8; let r := {}; let l := []; let T := BitVec.ofNat 512 (ofLe ((r.data ++ List.replicate 64 0).take 64)); Starts s 0x40 useTemplateWrite c ∧ a % 64 = 0 ∧ bufOk s c a w 64 = true ∧ c.reads = r :: l ∧ r.error = false ∧ templateOk T = true) ∧
    (let s : State := { w with pc := { commit := [(3, some true)], recirc := [(3, [{ port := 24, body := [], rawLen := 64, epoch := 1 }])] } }; let c : Cmd := cm 9 16383 [(8,0,0x100010),(16,0,1),(18,0,1)]; let a := fld c 8 0 64; let w := fld c 16 0 8; let n := fld c 18 0 16; Starts s 0x41 useRuleWrite c ∧ 1 ≤ n ∧ objNum c % 4096 + n ≤ 4096 ∧ a % 16 = 0 ∧ bufOk s c a w (144 * n) = true ∧ commitWaits s (objNum c / 4096) = true) ∧
    (let s : State := w; let c : Cmd := cm 9 16383 [(8,0,0x100010),(16,0,1),(18,0,1)]; let a := fld c 8 0 64; let w := fld c 16 0 8; let n := fld c 18 0 16; Starts s 0x41 useRuleWrite c ∧ 1 ≤ n ∧ objNum c % 4096 + n ≤ 4096 ∧ a % 16 = 0 ∧ bufOk s c a w (144 * n) = true ∧ commitWaits s (objNum c / 4096) = false ∧ c.reads = []) ∧
    (let s : State := w; let c : Cmd := { cm 9 16383 [(8,0,0x100010),(16,0,1),(18,0,1)] with reads := [{ error := true }] }; let a := fld c 8 0 64; let w := fld c 16 0 8; let n := fld c 18 0 16; let r := { error := true }; let l := []; let o := (r.data ++ List.replicate (144 * n) 0).take (144 * n); Starts s 0x41 useRuleWrite c ∧ 1 ≤ n ∧ objNum c % 4096 + n ≤ 4096 ∧ a % 16 = 0 ∧ bufOk s c a w (144 * n) = true ∧ commitWaits s (objNum c / 4096) = false ∧ c.reads = r :: l ∧ (r.error = true ∨ (∃ i, i < n ∧ ruleOk (ruleImage o i) = false))) ∧
    (let s : State := w; let c : Cmd := { cm 9 16383 [(8,0,0x100010),(16,0,1),(18,0,1)] with reads := [{ data := List.replicate 144 255 }] }; let a := fld c 8 0 64; let w := fld c 16 0 8; let n := fld c 18 0 16; let r := { data := List.replicate 144 255 }; let l := []; let o := (r.data ++ List.replicate (144 * n) 0).take (144 * n); Starts s 0x41 useRuleWrite c ∧ 1 ≤ n ∧ objNum c % 4096 + n ≤ 4096 ∧ a % 16 = 0 ∧ bufOk s c a w (144 * n) = true ∧ commitWaits s (objNum c / 4096) = false ∧ c.reads = r :: l ∧ (r.error = true ∨ (∃ i, i < n ∧ ruleOk (ruleImage o i) = false))) ∧
    (let s : State := w; let c : Cmd := { cm 9 16383 [(8,0,0x100010),(16,0,1),(18,0,1)] with reads := [{}] }; let a := fld c 8 0 64; let w := fld c 16 0 8; let n := fld c 18 0 16; let r := {}; let l := []; let o := (r.data ++ List.replicate (144 * n) 0).take (144 * n); Starts s 0x41 useRuleWrite c ∧ 1 ≤ n ∧ objNum c % 4096 + n ≤ 4096 ∧ a % 16 = 0 ∧ bufOk s c a w (144 * n) = true ∧ commitWaits s (objNum c / 4096) = false ∧ c.reads = r :: l ∧ r.error = false ∧ (∀ i, i < n → ruleOk (ruleImage o i) = true) ∧ n ≤ 16) ∧
    (let s : State := w; let c : Cmd := { cm 9 4096 [(8,0,0x100000),(16,0,1),(18,0,16)] with reads := [{}] }; let a := fld c 8 0 64; let w := fld c 16 0 8; let n := fld c 18 0 16; let r := {}; let l := []; let o := (r.data ++ List.replicate (144 * n) 0).take (144 * n); Starts s 0x41 useRuleWrite c ∧ 1 ≤ n ∧ objNum c % 4096 + n ≤ 4096 ∧ a % 16 = 0 ∧ bufOk s c a w (144 * n) = true ∧ commitWaits s (objNum c / 4096) = false ∧ c.reads = r :: l ∧ r.error = false ∧ (∀ i, i < n → ruleOk (ruleImage o i) = true) ∧ n ≤ 16) ∧
    (let s : State := w; let c : Cmd := { cm 9 4096 [(8,0,0x100000),(16,0,1),(18,0,17)] with reads := [{}] }; let a := fld c 8 0 64; let w := fld c 16 0 8; let n := fld c 18 0 16; let r := {}; let l := []; let o := (r.data ++ List.replicate (144 * n) 0).take (144 * n); Starts s 0x41 useRuleWrite c ∧ 1 ≤ n ∧ objNum c % 4096 + n ≤ 4096 ∧ a % 16 = 0 ∧ bufOk s c a w (144 * n) = true ∧ commitWaits s (objNum c / 4096) = false ∧ c.reads = r :: l ∧ r.error = false ∧ (∀ i, i < n → ruleOk (ruleImage o i) = true) ∧ 16 < n) := by refine ⟨?_, ?_, ?_, ?_, ?_, ?_, ?_, ?_, ?_, ?_, ?_⟩ <;> (simp only [starts_iff]; decide +kernel)
theorem wit_RuleCommitAndRead :
    (let s : State := { w with sq := { w.sq with journal := [{ ring := 5, opcode := 0x41, cmd := { cm 9 12289 [] with ring := 5 }, cond := .fabric }] } }; let c : Cmd := cm 9 12288 []; let k := objNum c / 4096; let busy := (∃ e ∈ s.sq.journal, e.task = false ∧ e.opcode = 0x42 ∧ objNum e.cmd / 4096 = k) ∨ ruleWriting s k = true; Starts s 0x42 useRuleCommit c ∧ objNum c % 4096 = 0 ∧ busy) ∧
    (let s : State := w; let c : Cmd := cm 9 12288 []; let k := objNum c / 4096; let act := if commitWaits s k then s.pc.active else setBitAt s.pc.active k (!s.pc.active.toNat.testBit k); let b := b2n (act.toNat.testBit k); let old := (tget [] s.pc.recirc k).any (fun f => f.epoch != b); let busy := (∃ e ∈ s.sq.journal, e.task = false ∧ e.opcode = 0x42 ∧ objNum e.cmd / 4096 = k) ∨ ruleWriting s k = true; Starts s 0x42 useRuleCommit c ∧ objNum c % 4096 = 0 ∧ ¬ busy ∧ old = false) ∧
    (let s : State := w; let c : Cmd := cm 9 12288 [(8,0,1)]; let k := objNum c / 4096; let act := if commitWaits s k then s.pc.active else setBitAt s.pc.active k (!s.pc.active.toNat.testBit k); let b := b2n (act.toNat.testBit k); let old := (tget [] s.pc.recirc k).any (fun f => f.epoch != b); let busy := (∃ e ∈ s.sq.journal, e.task = false ∧ e.opcode = 0x42 ∧ objNum e.cmd / 4096 = k) ∨ ruleWriting s k = true; Starts s 0x42 useRuleCommit c ∧ objNum c % 4096 = 0 ∧ ¬ busy ∧ old = false) ∧
    (let s : State := { w with pc := { recirc := [(3, [{ port := 24, body := [], rawLen := 64, epoch := 0 }])] } }; let c : Cmd := cm 9 12288 []; let k := objNum c / 4096; let act := if commitWaits s k then s.pc.active else setBitAt s.pc.active k (!s.pc.active.toNat.testBit k); let b := b2n (act.toNat.testBit k); let old := (tget [] s.pc.recirc k).any (fun f => f.epoch != b); let busy := (∃ e ∈ s.sq.journal, e.task = false ∧ e.opcode = 0x42 ∧ objNum e.cmd / 4096 = k) ∨ ruleWriting s k = true; Starts s 0x42 useRuleCommit c ∧ objNum c % 4096 = 0 ∧ ¬ busy ∧ old = true) ∧
    (let s : State := { w with pc := { rule := [(4095, { mask := 7 })] } }; let c : Cmd := { cm 9 4095 [(8,0,0x100000),(16,0,1)] with writeAck := some false }; let k := objNum c / 4096; let o : Octets := ruleBytes { mask := 7 }; o = ruleBytes (rule s k (fld c 17 0 1) (objNum c % 4096)) ∧ Starts s 0x43 useRuleRead c ∧ bufOk s c (fld c 8 0 64) (fld c 16 0 8) 144 = true ∧ c.writeAck = some false) ∧
    (let s : State := { w with pc := { rule := [(8191, { mask := 7 })] } }; let c : Cmd := { cm 9 4095 [(8,0,0x100000),(16,0,1),(17,0,1)] with writeAck := some false }; let k := objNum c / 4096; let o : Octets := ruleBytes { mask := 7 }; o = ruleBytes (rule s k (fld c 17 0 1) (objNum c % 4096)) ∧ Starts s 0x43 useRuleRead c ∧ bufOk s c (fld c 8 0 64) (fld c 16 0 8) 144 = true ∧ c.writeAck = some false) ∧
    (let s : State := { w with pc := { rule := [(4095, { mask := 7 })] } }; let c : Cmd := { cm 9 4095 [(8,0,0x100000),(16,0,1)] with writeAck := none }; let k := objNum c / 4096; let o : Octets := ruleBytes { mask := 7 }; o = ruleBytes (rule s k (fld c 17 0 1) (objNum c % 4096)) ∧ Starts s 0x43 useRuleRead c ∧ bufOk s c (fld c 8 0 64) (fld c 16 0 8) 144 = true ∧ c.writeAck = none) ∧
    (let s : State := { w with pc := { rule := [(4095, { mask := 7 })] } }; let c : Cmd := { cm 9 4095 [(8,0,0x100000),(16,0,1)] with writeAck := some true }; let k := objNum c / 4096; let o : Octets := ruleBytes { mask := 7 }; o = ruleBytes (rule s k (fld c 17 0 1) (objNum c % 4096)) ∧ Starts s 0x43 useRuleRead c ∧ bufOk s c (fld c 8 0 64) (fld c 16 0 8) 144 = true ∧ c.writeAck = some true) := by refine ⟨?_, ?_, ?_, ?_, ?_, ?_, ?_, ?_⟩ <;> (simp only [starts_iff]; decide +kernel)
theorem wit_StationInsertDeleteLookup :
    (let s : State := stnWith w { valid := true, dest := 0x4003, age := 5 }; let c : Cmd := cm 0x0A 0 [(8,0,3),(10,0,0x0F0E0D0C0B0A),(16,0,0x4003),(18,0,1)]; let i := 8 * (cands w 3 0x0A0B0C0D0E0F).1.1; Starts s 0x50 useTableInsert c ∧ (inStarter s = true → fbit c 18 0 = true) ∧ destBad (fld c 16 0 16) = false ∧ stnFind s (keyFid c) (keyMac c) = some i) ∧
    (let s : State := w; let c : Cmd := cm 0x0A 0 [(8,0,3),(10,0,0x0F0E0D0C0B0A),(16,0,0x4003),(18,0,1)]; let u := (cands s (keyFid c) (keyMac c)).1.1; let i := 0; Starts s 0x50 useTableInsert c ∧ (inStarter s = true → fbit c 18 0 = true) ∧ destBad (fld c 16 0 16) = false ∧ stnFind s (keyFid c) (keyMac c) = none ∧ freeSlot s u = some i) ∧
    (let s : State := w; let c : Cmd := cm 0x0A 0 [(8,0,3),(10,0,0x0F0E0D0C0B0A),(16,0,0x4003),(18,0,1)]; let E : StnEntry := { dest := BitVec.ofNat 16 (fld c 16 0 16), static := fbit c 18 0, touched := true, age := s.stn.ageInit }; let x := (insertKey (started w 0x50 (cm 0x0A 0 [(8,0,3),(10,0,0x0F0E0D0C0B0A),(16,0,0x4003),(18,0,1)])) 3 0x0A0B0C0D0E0F { dest := 0x4003, static := true, touched := true, age := (w).stn.ageInit }).1; let i := 8 * (cands w 3 0x0A0B0C0D0E0F).1.1; let m := 0; Starts s 0x50 useTableInsert c ∧ (inStarter s = true → fbit c 18 0 = true) ∧ destBad (fld c 16 0 16) = false ∧ stnFind s (keyFid c) (keyMac c) = none ∧ insertKey (started s 0x50 c) (keyFid c) (keyMac c) E = (x, some (i, m))) ∧
    (let s : State := stnFull; let c : Cmd := cm 0x0A 0 [(8,0,3),(10,0,0x0F0E0D0C0B0A),(16,0,0x4003),(18,0,1)]; let E : StnEntry := { dest := BitVec.ofNat 16 (fld c 16 0 16), static := fbit c 18 0, touched := true, age := s.stn.ageInit }; let x := (insertKey (started stnFull 0x50 (cm 0x0A 0 [(8,0,3),(10,0,0x0F0E0D0C0B0A),(16,0,0x4003),(18,0,1)])) 3 0x0A0B0C0D0E0F { dest := 0x4003, static := true, touched := true, age := (w).stn.ageInit }).1; Starts s 0x50 useTableInsert c ∧ (inStarter s = true → fbit c 18 0 = true) ∧ destBad (fld c 16 0 16) = false ∧ stnFind s (keyFid c) (keyMac c) = none ∧ insertKey (started s 0x50 c) (keyFid c) (keyMac c) E = (x, none)) ∧
    (let s : State := stnWith w { valid := true, dest := 0x4003, age := 5 }; let c : Cmd := cm 0x0A 0 [(8,0,3),(10,0,0x0F0E0D0C0B0A)]; let l := copies s (keyFid c) (keyMac c); Starts s 0x51 useKey c ∧ l ≠ []) ∧
    (let s : State := w; let c : Cmd := cm 0x0A 0 [(8,0,3),(10,0,0x0F0E0D0C0B0A)]; let l := copies s (keyFid c) (keyMac c); Starts s 0x51 useKey c ∧ l = []) ∧
    (let s : State := w; let c : Cmd := cm 0x0A 0 [(8,0,3),(10,0,0x0F0E0D0C0B0A)]; Starts s 0x52 useKey c ∧ stnFind s (keyFid c) (keyMac c) = none) ∧
    (let s : State := stnWith w { valid := true, dest := 0x4003, age := 5 }; let c : Cmd := cm 0x0A 0 [(8,0,3),(10,0,0x0F0E0D0C0B0A)]; let i := 8 * (cands w 3 0x0A0B0C0D0E0F).1.1; Starts s 0x52 useKey c ∧ stnFind s (keyFid c) (keyMac c) = some i) := by refine ⟨?_, ?_, ?_, ?_, ?_, ?_, ?_, ?_⟩ <;> (simp only [starts_iff]; decide +kernel)
theorem wit_StationSweepsAndSettings :
    (let s : State := stnWith w { valid := true, dest := 0x4003 }; let c : Cmd := cm 0x0A 0 [(12,0,2)]; Starts s 0x53 useTableFlush c ∧ tableBusy s = false) ∧
    (let s : State := { w with stn := { phase := 1, s1n := 5, s2n := 6 } }; let c : Cmd := cm 0x0A 0 [(8,0,77),(12,0,78)]; let a := fld c 8 0 28; let b := fld c 12 0 28; Starts s 0x54 useTableRehash c ∧ a ≠ b ∧ s.stn.phase ≠ 0 ∧ ¬(s.stn.s1n = a ∧ s.stn.s2n = b)) ∧
    (let s : State := rehashFull; let c : Cmd := cm 0x0A 0 [(8,0,77),(12,0,78)]; let a := fld c 8 0 28; let b := fld c 12 0 28; let u := started s 0x54 c; let r := rehashRun 16 (if s.stn.phase = 0 then { u with stn := { s.stn with s1n := a, s2n := b, tg := !s.stn.tg, phase := 1, ptr := 0 } } else u); Starts s 0x54 useTableRehash c ∧ a ≠ b ∧ tableBusy s = false ∧ (s.stn.phase ≠ 0 → s.stn.s1n = a ∧ s.stn.s2n = b) ∧ r.2 = true) ∧
    (let s : State := { w with stn := { phase := 2, ptr := 65535, s1n := 77, s2n := 78 } }; let c : Cmd := cm 0x0A 0 [(8,0,77),(12,0,78)]; let a := fld c 8 0 28; let b := fld c 12 0 28; let u := started s 0x54 c; let r := rehashRun 16 (if s.stn.phase = 0 then { u with stn := { s.stn with s1n := a, s2n := b, tg := !s.stn.tg, phase := 1, ptr := 0 } } else u); Starts s 0x54 useTableRehash c ∧ a ≠ b ∧ tableBusy s = false ∧ (s.stn.phase ≠ 0 → s.stn.s1n = a ∧ s.stn.s2n = b) ∧ r.2 = false ∧ r.1.stn.phase = 0) ∧
    (let s : State := { w with stn := { phase := 2, ptr := 100, s1n := 77, s2n := 78 } }; let c : Cmd := cm 0x0A 0 [(8,0,77),(12,0,78)]; let a := fld c 8 0 28; let b := fld c 12 0 28; let u := started s 0x54 c; let r := rehashRun 16 (if s.stn.phase = 0 then { u with stn := { s.stn with s1n := a, s2n := b, tg := !s.stn.tg, phase := 1, ptr := 0 } } else u); Starts s 0x54 useTableRehash c ∧ a ≠ b ∧ tableBusy s = false ∧ (s.stn.phase ≠ 0 → s.stn.s1n = a ∧ s.stn.s2n = b) ∧ r.2 = false ∧ r.1.stn.phase ≠ 0) ∧
    (let s : State := w; let c : Cmd := cm 0x0A 0 [(8,0,77),(12,0,78)]; let a := fld c 8 0 28; let b := fld c 12 0 28; Starts s 0x54 useTableRehash c ∧ a ≠ b ∧ tableBusy s = false ∧ s.stn.phase = 0 ∧ (∀ i, i < 128 → (stn s i).valid = false)) ∧
    (let s : State := { w with spr := { group := [(1023, { base := 0, size := 4 })] } }; let c : Cmd := cm 1 31 [(8,0,7),(10,0,4095),(12,0,1023)]; Starts s 0x55 useTableLearn c ∧ objKind c = 1 ∧ (inStarter s = true → fbit c 8 0 = false) ∧ (fbit c 8 2 = true → (spreadGroup s (fld c 12 0 10)).size ≠ 0)) ∧
    (let s : State := w; let c : Cmd := cm 0x0A 0 [(8,0,1000)]; let k := asObj c 0x0A 0 0; Starts s 0x55 useTableLearn k ∧ 1 ≤ fld c 8 0 16 ∧ fld c 8 0 16 ≤ 1000 ∧ (fld c 8 0 16 = s.stn.h ∨ learningAny s = false) ∧ fbit c 10 0 = false) ∧
    (let s : State := w; let c : Cmd := cm 0x0A 0 [(8,0,1)]; let k := asObj c 0x0A 0 0; Starts s 0x55 useTableLearn k ∧ 1 ≤ fld c 8 0 16 ∧ fld c 8 0 16 ≤ 1000 ∧ (fld c 8 0 16 = s.stn.h ∨ learningAny s = false) ∧ fbit c 10 0 = false) ∧
    (let s : State := withBob wb 201 { kind := .completion, st := .opened }; let c : Cmd := cm 0x0A 0 [(8,0,40),(10,0,1),(12,0,201)]; let k := asObj c 0x0A 0 0; let b := fld c 12 0 18; Starts s 0x55 useTableLearn k ∧ 1 ≤ fld c 8 0 16 ∧ fld c 8 0 16 ≤ 1000 ∧ (fld c 8 0 16 = s.stn.h ∨ learningAny s = false) ∧ fbit c 10 0 = true ∧ (bobn s b).st = .opened ∧ (bobn s b).kind = .completion ∧ (∀ e ∈ s.bob.tab, e.2.st ≠ .closed → e.2.kind ≠ .completion → e.2.completion ≠ b)) ∧
    (let s : State := w; let c : Cmd := cm 0x0A 0 [(8,0,65535),(10,0,255)]; Starts s 0x56 useTableAge c ∧ fld c 10 0 8 ≠ 0) := by refine ⟨?_, ?_, ?_, ?_, ?_, ?_, ?_, ?_, ?_, ?_, ?_⟩ <;> (simp only [starts_iff]; decide +kernel)
theorem wit_TimeChangesWaitForTheBoundary :
    (let s : State := w; let c : Cmd := cm 0x11 0 [(8,16,999999999),(14,0,5)]; inStarter s = false ∧ followsTime s = false ∧ Starts s 0x60 useTimeSet c ∧ fld c 8 16 30 ≤ 999999999) ∧
    (let s : State := w; let c : Cmd := cm 0x11 0 [(8,0,2^63)]; inStarter s = false ∧ followsTime s = false ∧ Starts s 0x61 useTimeAdjust c ∧ c.sub = 0 ∧ adjOffset c ≠ 0 ∧ (adjOffset c).natAbs ≤ 2 ^ 63) ∧
    (let s : State := w; let c : Cmd := cm 0x11 0 []; inStarter s = false ∧ followsTime s = false ∧ Starts s 0x61 useTimeAdjust c ∧ c.sub = 0 ∧ adjOffset c = 0) ∧
    (let s : State := w; let c : Cmd := cm 0x11 0 [(8,0,65536000000000),(20,0,4294967)] 1; inStarter s = false ∧ followsTime s = false ∧ Starts s 0x61 useTimeAdjust { c with sub := 1 } ∧ (adjOffset c).natAbs ≤ 65536000000000 ∧ (adjOffset c ≠ 0 → 1 ≤ fld c 20 0 32 ∧ fld c 20 0 32 ≤ 4294967)) ∧
    (let s : State := w; let c : Cmd := cm 0x11 0 [(8,0,4294967)]; inStarter s = false ∧ followsTime s = false ∧ Starts s 0x62 useTimeRate c ∧ (sgn 32 (fld c 8 0 32)).natAbs ≤ 4294967) ∧
    (let s : State := w; let c : Cmd := cm 0x11 0 [(8,0,2^32 - 4294967)]; inStarter s = false ∧ followsTime s = false ∧ Starts s 0x62 useTimeRate c ∧ (sgn 32 (fld c 8 0 32)).natAbs ≤ 4294967) ∧
    (let s : State := { w with pw := { w.pw with starter := true } }; let c : Cmd := cm 0x11 0 [(8,16,999999999),(14,0,5)]; (inStarter s = true ∨ followsTime s = true) ∧ Starts s 0x60 useTimeSet c ∧ fld c 8 16 30 ≤ 999999999) ∧
    (let s : State := wk .member; let c : Cmd := cm 0x11 0 [(8,16,999999999),(14,0,5)]; (inStarter s = true ∨ followsTime s = true) ∧ Starts s 0x60 useTimeSet c ∧ fld c 8 16 30 ≤ 999999999) ∧
    (let s : State := { w with pw := { w.pw with starter := true } }; let c : Cmd := cm 0x11 0 [(8,0,2^63)]; (inStarter s = true ∨ followsTime s = true) ∧ Starts s 0x61 useTimeAdjust c ∧ c.sub = 0 ∧ (adjOffset c).natAbs ≤ 2 ^ 63) ∧
    (let s : State := { w with pw := { w.pw with starter := true } }; let c : Cmd := cm 0x11 0 [(8,0,65536000000000),(20,0,4294967)] 1; (inStarter s = true ∨ followsTime s = true) ∧ Starts s 0x61 useTimeAdjust { c with sub := 1 } ∧ (adjOffset c).natAbs ≤ 65536000000000 ∧ (adjOffset c ≠ 0 → 1 ≤ fld c 20 0 32 ∧ fld c 20 0 32 ≤ 4294967)) ∧
    (let s : State := wk .merging; let c : Cmd := cm 0x11 0 [(8,0,4294967)]; (inStarter s = true ∨ followsTime s = true) ∧ Starts s 0x62 useTimeRate c ∧ (sgn 32 (fld c 8 0 32)).natAbs ≤ 4294967) ∧
    (let s : State := withEntry { w with tu := { w.tu with result := [(0, 99)] } } (ent 0x60 (cm 0x11 0 []) .boundary); let j : JEntry := ent 0x60 (cm 0x11 0 []) .boundary; let acked := 0; Takes s acked j ∧ (j.opcode = 0x60 ∨ j.opcode = 0x61 ∨ j.opcode = 0x62) ∧ j.stage = 1 ∧ j.cond = .boundary) ∧
    (let s : State := withEntry { w with tu := { w.tu with result := [(0, 99)] } } (ent 0x61 (cm 0x11 0 []) .boundary); let j : JEntry := ent 0x61 (cm 0x11 0 []) .boundary; let acked := 0; Takes s acked j ∧ (j.opcode = 0x60 ∨ j.opcode = 0x61 ∨ j.opcode = 0x62) ∧ j.stage = 1 ∧ j.cond = .boundary) ∧
    (let s : State := withEntry { w with tu := { w.tu with result := [(0, 99)] } } (ent 0x62 (cm 0x11 0 []) .boundary); let j : JEntry := ent 0x62 (cm 0x11 0 []) .boundary; let acked := 0; Takes s acked j ∧ (j.opcode = 0x60 ∨ j.opcode = 0x61 ∨ j.opcode = 0x62) ∧ j.stage = 1 ∧ j.cond = .boundary) := ⟨by simp only [starts_iff]; decide +kernel, by simp only [starts_iff]; decide +kernel, by simp only [starts_iff]; decide +kernel, by simp only [starts_iff]; decide +kernel, by simp only [starts_iff]; decide +kernel, by simp only [starts_iff]; decide +kernel, by simp only [starts_iff]; decide +kernel, by simp only [starts_iff]; decide +kernel, by simp only [starts_iff]; decide +kernel, by simp only [starts_iff]; decide +kernel, by simp only [starts_iff]; decide +kernel, by simp only [takes_iff]; decide +kernel, by simp only [takes_iff]; decide +kernel, by simp only [takes_iff]; decide +kernel⟩
theorem wit_BoundaryAppliesTheChange :
    (let s : State := { w with tu := { w.tu with shadow := [(3, 5)] } }; isOn s dTU = true ∧ s.tu.cycles % 1024 = 0 ∧ s.ic.wakeHit = none ∧ s.tu.pend = []) ∧
    (let s : State := { w with tu := { w.tu with pend := [(0, .set { sec := 9, ns := 8, frac := 7 })] } }; let r : Nat := 0; let x : T96 := { sec := 9, ns := 8, frac := 7 }; isOn s dTU = true ∧ s.tu.cycles % 1024 = 0 ∧ s.ic.wakeHit = none ∧ s.tu.pend = [(r, .set x)]) ∧
    (let s : State := { w with tu := { w.tu with pend := [(0, .step (-70000))] } }; let r : Nat := 0; let o : Int := -70000; isOn s dTU = true ∧ s.tu.cycles % 1024 = 0 ∧ s.ic.wakeHit = none ∧ s.tu.pend = [(r, .step o)]) ∧
    (let s : State := { w with tu := { w.tu with pend := [(0, .slew (-70000) 5)] } }; let r : Nat := 0; let o : Int := -70000; let mag : Nat := 5; isOn s dTU = true ∧ s.tu.cycles % 1024 = 0 ∧ s.ic.wakeHit = none ∧ s.tu.pend = [(r, .slew o mag)] ∧ o ≠ 0) ∧
    (let s : State := { w with tu := { w.tu with pend := [(0, .slew 0 5)] } }; let r : Nat := 0; let mag : Nat := 5; isOn s dTU = true ∧ s.tu.cycles % 1024 = 0 ∧ s.ic.wakeHit = none ∧ s.tu.pend = [(r, .slew 0 mag)]) ∧
    (let s : State := { w with st0 := { running := true }, pw := { w.pw with starter := true }, tu := { w.tu with pend := [(0, .starter)] } }; let r : Nat := 0; isOn s dTU = true ∧ s.tu.cycles % 1024 = 0 ∧ s.ic.wakeHit = none ∧ s.tu.pend = [(r, .starter)]) ∧
    (let s : State := { w with tu := { w.tu with pend := [(0, .rate (-3))] } }; let r : Nat := 0; let x : Int := -3; isOn s dTU = true ∧ s.tu.cycles % 1024 = 0 ∧ s.ic.wakeHit = none ∧ s.tu.pend = [(r, .rate x)]) := by refine ⟨?_, ?_, ?_, ?_, ?_, ?_, ?_⟩ <;> decide +kernel
theorem wit_ReferenceSlewPulsesAndTrim :
    (let s : State := w; isOn s dTU = true ∧ s.tu.holdover = false ∧ s.tu.refAt + 16 ≤ s.tu.cycles) ∧
    (let s : State := { w with tu := { w.tu with holdover := true } }; isOn s dTU = true ∧ s.tu.holdover = true ∧ s.tu.refAt + 1024 ≤ s.tu.cycles) ∧
    (let s : State := { w with tu := { w.tu with slewing := true } }; isOn s dTU = true ∧ s.tu.slewLeft = 0 ∧ s.tu.slewing = true) ∧
    (let s : State := { w with tu := { w.tu with pps := { en := true, always := true, offset := 5 }, ppsPrev := { en := true, always := true, offset := 5 }, ppsDue := true } }; isOn s dTU = true ∧ (ppsInForce s).en = true ∧ s.tu.ppsOut = false ∧ ppsAllowed s = true ∧ s.tu.ppsDue = true) ∧
    (let s : State := { w with tu := { w.tu with ppsOut := true, ppsRise := 1999900000000, ppsNowWidth := 100000 } }; s.ic.wakeHit = none ∧ s.tu.ppsOut = true ∧ s.tu.ppsRise + s.tu.ppsNowWidth * 1000 ≤ s.tm.now) ∧
    (let s : State := { w with tu := { w.tu with ppsInEn := true, captureAt := some 1999999900000 } }; isOn s dTU = true ∧ s.tu.ppsInEn = true ∧ (∀ x ∈ s.tu.captureAt, x + 100000 ≤ s.tm.now)) ∧
    (let s : State := { w with tu := { w.tu with ppsInEn := true } }; isOn s dTU = true ∧ s.tu.ppsInEn = true ∧ (∀ x ∈ s.tu.captureAt, x + 100000 ≤ s.tm.now)) ∧
    (let s : State := w; let c : Cmd := cm 0x11 0 [(8,0,3),(12,0,999999),(16,0,499999999)]; Starts s 0x63 useTimePps c ∧ c.sub = 0 ∧ 1 ≤ fld c 12 0 32 ∧ fld c 12 0 32 ≤ 999999 ∧ (sgn 32 (fld c 16 0 32)).natAbs ≤ 499999999) ∧
    (let s : State := w; let c : Cmd := cm 0x11 0 [(12,0,1),(16,0,2^32 - 499999999)]; Starts s 0x63 useTimePps c ∧ c.sub = 0 ∧ 1 ≤ fld c 12 0 32 ∧ fld c 12 0 32 ≤ 999999 ∧ (sgn 32 (fld c 16 0 32)).natAbs ≤ 499999999) ∧
    (let s : State := w; let c : Cmd := cm 0x11 0 [(8,0,1)] 1; Starts s 0x63 useTimePps { c with sub := 1 }) ∧
    (let s : State := { w with st0 := { running := true, trimAt := 1999999959040 } }; s.ic.wakeHit = none ∧ s.st0.running = true ∧ s.st0.trimAt + 40960 ≤ s.tm.now) := ⟨by decide +kernel, by decide +kernel, by decide +kernel, by decide +kernel, by decide +kernel, by decide +kernel, by decide +kernel, by simp only [starts_iff]; decide +kernel, by simp only [starts_iff]; decide +kernel, by simp only [starts_iff]; decide +kernel, by decide +kernel⟩
theorem wit_TimeReadouts :
    (let s : State := w; s.ic.wakeHit = none ∧ (s.st0.running = true ∨ isOn s dTU = true)) ∧
    (let s : State := setDom { w with st0 := { running := true } } dTU {}; s.ic.wakeHit = none ∧ (s.st0.running = true ∨ isOn s dTU = true)) ∧
    (let s : State := w; let b : BitVec 8 := 0x0F; s.ic.wakeHit = none ∧ (s.st0.running = true ∨ isOn s dTU = true) ∧ b ≠ 0xFF) ∧
    (let s : State := setDom w dTU {}; s.ic.wakeHit = none ∧ s.st0.running = false ∧ isOn s dTU = false) ∧
    (let s : State := w; s.ic.wakeHit = none ∧ isOn s dTU = true) ∧
    (let s : State := w; let b : BitVec 8 := 0; s.ic.wakeHit = none ∧ isOn s dTU = true ∧ b ≠ 0xFF) ∧
    (let s : State := setDom w dTU {}; s.ic.wakeHit = none ∧ isOn s dTU = false) := by refine ⟨?_, ?_, ?_, ?_, ?_, ?_, ?_⟩ <;> decide +kernel
theorem wit_TsqPop :
    (let s : State := withLine wb { lineUp with tsq := [{ fid := 1, id := 0xBEEF, quality := .locked, oneStep := true, preempted := true, aborted := false, t := { sec := 3, ns := 2, frac := 1 } }], tsqOvf := true }; let p : Nat := 12; let e := { fid := 1, id := 0xBEEF, quality := .locked, oneStep := true, preempted := true, aborted := false, t := { sec := 3, ns := 2, frac := 1 } }; let l := []; s.ic.wakeHit = none ∧ isOn s (dMS (sliceOf p)) = true ∧ (line s p).tsq = e :: l) ∧
    (let s : State := wb; let p : Nat := 12; s.ic.wakeHit = none ∧ isOn s (dMS (sliceOf p)) = true ∧ (line s p).tsq = []) ∧
    (let s : State := wb; let p : Nat := 12; let b : BitVec 8 := 0x7F; s.ic.wakeHit = none ∧ isOn s (dMS (sliceOf p)) = true ∧ b ≠ 0xFF) ∧
    (let s : State := setDom wb (dMS 1) {}; let p : Nat := 12; s.ic.wakeHit = none ∧ isOn s (dMS (sliceOf p)) = false) := by refine ⟨?_, ?_, ?_, ?_⟩ <;> decide +kernel
theorem wit_IrqSettings :
    (let s : State := w; let c : Cmd := cm 0x0D 59 [(8,0,15),(9,0,16)]; Starts s 0xC0 useIrqRoute c) ∧
    (let s : State := w; let c : Cmd := cm 0x0D 0 [(8,0,15),(9,0,31)]; Starts s 0xC0 useIrqRoute c) ∧
    (let s : State := w; let c : Cmd := cm 0x0D 63 [(8,0,65535)]; Starts s 0xC1 useIrqModerate c) ∧
    (let s : State := w; let c : Cmd := cm 0x0D 63 [(8,0,1)]; let g := objNum c; Starts s 0xC2 useIrqWake c ∧ (fbit c 8 0 = true → (grp s g).wake = false → wakeGroups s < 16)) ∧
    (let s : State := { w with ic := { group := [(63, { wake := true })] } }; let c : Cmd := cm 0x0D 63 []; let g := objNum c; Starts s 0xC2 useIrqWake c ∧ (fbit c 8 0 = true → (grp s g).wake = false → wakeGroups s < 16)) ∧
    (let s : State := { w with ic := { group := (List.range 16).map (fun g => (g, { wake := true })) } }; let c : Cmd := cm 0x0D 63 [(8,0,1)]; let g := objNum c; Starts s 0xC2 useIrqWake c ∧ fbit c 8 0 = true ∧ (grp s g).wake = false ∧ 16 ≤ wakeGroups s) ∧
    (let s : State := w; let c : Cmd := cm 0 0 [(8,0,255),(9,0,1)] 15; Starts s 0xC3 useFilterSet c ∧ fld c 8 0 8 ≠ 0) ∧
    (let s : State := w; let c : Cmd := cm 0 0 [] 15; Starts s 0xC3 useFilterSet c ∧ fld c 8 0 8 = 0) := by refine ⟨?_, ?_, ?_, ?_, ?_, ?_, ?_, ?_⟩ <;> (simp only [starts_iff]; decide +kernel)
theorem wit_EndOfInterrupt :
    (let s : State := { w with ic := { target := [(2, { service := [(77, 3)] })] } }; s.ic.wakeHit = none ∧ aonOpen s = true) ∧
    (let s : State := w; s.ic.wakeHit = none ∧ aonOpen s = true) ∧
    (let s : State := w; s.ic.wakeHit = none ∧ aonOpen s = true) ∧
    (let s : State := w; let b : BitVec 8 := 0x7F; s.ic.wakeHit = none ∧ aonOpen s = true ∧ b ≠ 0xFF) ∧
    (let s : State := State.reset; s.ic.wakeHit = none ∧ aonOpen s = false) := by refine ⟨?_, ?_, ?_, ?_, ?_⟩ <;> decide +kernel
theorem wit_GatesVotesAndInputs :
    (let s : State := { ({ w with ic := { group := [(5, { pend := 2, en := 2 })] } }) with tm := { w.tm with now := 2000000000039 } }; let g := 5; s.ic.wakeHit = none ∧ aoEnd s = true ∧ (grp s g).gateOpen = false ∧ (grp s g).pend &&& (grp s g).en ≠ 0 ∧ (holdK (grp s g) ≤ holdCount s (grp s g) ∨ forcedOpen s g = true)) ∧
    (let s : State := { ({ w with ic := { group := [(5, { pend := 2, en := 2, holdoff := 100, lastOpen := some 1999999000000 })] } }) with tm := { w.tm with now := 2000000000039 } }; let g := 5; s.ic.wakeHit = none ∧ aoEnd s = true ∧ (grp s g).gateOpen = false ∧ (grp s g).pend &&& (grp s g).en ≠ 0 ∧ (holdK (grp s g) ≤ holdCount s (grp s g) ∨ forcedOpen s g = true)) ∧
    (let s : State := { ({ w with ic := { group := [(5, { pend := 2, en := 2, gateOpen := true }), (6, { en := 2, gateOpen := true })] } }) with tm := { w.tm with now := 2000000000039 } }; s.ic.wakeHit = none ∧ s.pending = [] ∧ aoEnd s = true) ∧
    (let s : State := { ({ w with ic := { target := [(2, { sleepHeld := true })] } }) with tm := { w.tm with now := 2000000000039 } }; let h := 2; s.ic.wakeHit = none ∧ aoEnd s = true ∧ (tgt s h).sleepHeld = true ∧ sleepHolders s h = []) ∧
    (let s : State := { w with ic := { filter := [(15, { en := true, len := 5 })] } }; let n := 15; s.ic.wakeHit = none ∧ n < 16 ∧ (flt s n).en = true ∧ (flt s n).level = false ∧ aonOpen s = true ∧ aoCycle (flt s n).since + (flt s n).len.toNat ≤ aoCycle s.tm.now) ∧
    (let s : State := { w with ic := { filter := [(15, { en := true, level := true, len := 1 })] } }; let n := 15; s.ic.wakeHit = none ∧ (flt s n).en = true ∧ (flt s n).level = true ∧ aonOpen s = true ∧ aoCycle (flt s n).since + (flt s n).len.toNat ≤ aoCycle s.tm.now) ∧
    (let s : State := { w with ic := { group := [(59, { pend := 2, t4 := 2, en := 2 })] }, sq := { w.sq with t4Claim := some 1889 } }; let src := 1889; s.ic.wakeHit = none ∧ s.sq.t4Claim = some src) := by refine ⟨?_, ?_, ?_, ?_, ?_, ?_, ?_⟩ <;> decide +kernel
theorem wit_PowerVotes :
    (let s : State := w; let c : Cmd := cm 0x0B 55 []; let d := objNum c; Starts s 0x70 useNone c ∧ ringVote s c.ring d = false ∧ d ≠ 63 ∧ isFailed s d = false ∧ isOn s d = true) ∧
    (let s : State := { w with pw := { w.pw with vote := [(55, 2)] } }; let c : Cmd := cm 0x0B 55 []; let d := objNum c; Starts s 0x70 useNone c ∧ ringVote s c.ring d = false ∧ d ≠ 63 ∧ isFailed s d = false ∧ isOn s d = true) ∧
    (let s : State := setDom (w) 55 {}; let c : Cmd := cm 0x0B 55 []; let d := objNum c; Starts s 0x70 useNone c ∧ ringVote s c.ring d = false ∧ d ≠ 63 ∧ isFailed s d = false ∧ isOn s d = false) ∧
    (let s : State := setDom (w) 0 { st := .waking }; let c : Cmd := cm 0x0B 0 []; let d := objNum c; Starts s 0x70 useNone c ∧ ringVote s c.ring d = false ∧ d ≠ 63 ∧ isFailed s d = false ∧ isOn s d = false) ∧
    (let s : State := setDom (w) 55 { st := .failed }; let c : Cmd := cm 0x0B 55 []; let d := objNum c; Starts s 0x70 useNone c ∧ ringVote s c.ring d = false ∧ d ≠ 63 ∧ isFailed s d = true) ∧
    (let s : State := w; let c : Cmd := cm 0x0B 63 []; let d := objNum c; Starts s 0x70 useNone c ∧ ringVote s c.ring d = false ∧ d = 63) ∧
    (let s : State := { w with pw := { w.pw with vote := [(55, 1)] } }; let c : Cmd := cm 0x0B 55 []; let d := objNum c; Starts s 0x70 useNone c ∧ ringVote s c.ring d = true) ∧
    (let s : State := { w with pw := { w.pw with vote := [(0, 1)] } }; let c : Cmd := cm 0x0B 0 []; let d := objNum c; Starts s 0x71 useNone c ∧ ringVote s c.ring d = true) ∧
    (let s : State := { w with pw := { w.pw with vote := [(0, 2)] } }; let c : Cmd := cm 0x0B 0 []; let d := objNum c; Starts s 0x71 useNone c ∧ ringVote s c.ring d = false) := by refine ⟨?_, ?_, ?_, ?_, ?_, ?_, ?_, ?_, ?_⟩ <;> (simp only [starts_iff]; decide +kernel)
theorem wit_SleepAndWakeSettings :
    (let s : State := w; let c : Cmd := cm 0 0 [(8,0,3),(9,0,1)]; let h := fld c 8 0 2; Starts s 0x72 usePowerSleep c ∧ fbit c 9 0 = true ∧ (tgt s h).sleepGranted = false) ∧
    (let s : State := { w with ic := { target := [(3, { sleepGranted := true })] } }; let c : Cmd := cm 0 0 [(8,0,3),(9,0,1)]; let h := fld c 8 0 2; Starts s 0x72 usePowerSleep c ∧ fbit c 9 0 = true ∧ (tgt s h).sleepGranted = true) ∧
    (let s : State := { w with ic := { target := [(3, { sleepHeld := true })] } }; let c : Cmd := cm 0 0 [(8,0,3)]; Starts s 0x72 usePowerSleep c ∧ fbit c 9 0 = false) ∧
    (let s : State := w; let c : Cmd := cm 0 0 [(8,0,0xFFFFFF),(12,0,0xFFFF)]; Starts s 0x73 usePowerRetain c) ∧
    (let s : State := w; let c : Cmd := cm 0 0 [(8,0,0xFFFFFFFF),(12,0,0xFFFFFFFF),(16,0,0xFFFF),(18,0,1),(20,0,0xFFFFFFFF)]; Starts s 0x74 useWakesrc c ∧ objKind c = 0 ∧ c.sub = 0) ∧
    (let s : State := { w with pw := { w.pw with lastWake := { kind := 2, num := 31 } } }; let c : Cmd := cm 0 0 [] 1; Starts s 0x74 useWakesrc (asObj c 0 0 1)) ∧
    (let s : State := w; let c : Cmd := cm 1 31 [(8,0,7),(16,0,9),(24,0,248),(25,0,1)]; let k := asObj c 1 (objNum c) 0; Starts s 0x74 useWakesrc k ∧ objNum c < 32 ∧ fld c 24 0 8 ≤ 248) ∧
    (let s : State := w; let c : Cmd := cm 1 31 [(24,0,249)]; let k := asObj c 1 (objNum c) 0; Starts s 0x74 useWakesrc k ∧ objNum c < 32 ∧ 248 < fld c 24 0 8) := by refine ⟨?_, ?_, ?_, ?_, ?_, ?_, ?_, ?_⟩ <;> (simp only [starts_iff]; decide +kernel)
theorem wit_DomainClocks :
    (let s : State := setDom (w) 55 { domOn with onFio := true }; let c : Cmd := cm 0x0B 55 [(8,0,1)]; let tog := {}; let d := objNum c; Starts s 0x75 useClock c ∧ objKind c = 0x0B ∧ d < 56 ∧ isOn s d = true ∧ (fbit c 8 0 = true → clkToggles tog d = true) ∧ (fbit c 8 0 = false → portVotes s d = 0 ∧ listenVotes s d = 0)) ∧
    (let s : State := w; let c : Cmd := cm 0x0B 0 []; let tog := {}; let d := objNum c; Starts s 0x75 useClock c ∧ objKind c = 0x0B ∧ d < 56 ∧ isOn s d = true ∧ (fbit c 8 0 = true → clkToggles tog d = true) ∧ (fbit c 8 0 = false → portVotes s d = 0 ∧ listenVotes s d = 0)) ∧
    (let s : State := setDom (w) 55 {}; let c : Cmd := cm 0x0B 55 [(8,0,1)]; let tog := {}; let d := objNum c; Starts s 0x75 useClock c ∧ objKind c = 0x0B ∧ d < 56 ∧ (isOn s d = false ∨ (fbit c 8 0 = true ∧ clkToggles tog d = false) ∨ (fbit c 8 0 = false ∧ 0 < portVotes s d + listenVotes s d))) ∧
    (let s : State := setDom (w) 55 { domOn with onFio := true }; let c : Cmd := cm 0x0B 55 [(8,0,1)]; let tog := { dp := false }; let d := objNum c; Starts s 0x75 useClock c ∧ objKind c = 0x0B ∧ d < 56 ∧ (isOn s d = false ∨ (fbit c 8 0 = true ∧ clkToggles tog d = false) ∨ (fbit c 8 0 = false ∧ 0 < portVotes s d + listenVotes s d))) ∧
    (let s : State := portOn w 12 p2 lineUp; let c : Cmd := cm 0x0B 3 []; let tog := {}; let d := objNum c; Starts s 0x75 useClock c ∧ objKind c = 0x0B ∧ d < 56 ∧ (isOn s d = false ∨ (fbit c 8 0 = true ∧ clkToggles tog d = false) ∨ (fbit c 8 0 = false ∧ 0 < portVotes s d + listenVotes s d))) ∧
    (let s : State := setDom (w) 55 {}; let c : Cmd := cm 0 0 []; let tog := {}; Starts s 0x75 useClock c ∧ objKind c = 0 ∧ (∀ d, d < 56 → isOn s d = true → (fbit c 8 0 = true → clkToggles tog d = true) ∧ (fbit c 8 0 = false → portVotes s d = 0 ∧ listenVotes s d = 0))) ∧
    (let s : State := setDom (w) 55 { domOn with onFio := true, selfSwitch := true }; let c : Cmd := cm 0 0 [(8,0,1)]; let tog := {}; Starts s 0x75 useClock c ∧ objKind c = 0 ∧ (∀ d, d < 56 → isOn s d = true → (fbit c 8 0 = true → clkToggles tog d = true) ∧ (fbit c 8 0 = false → portVotes s d = 0 ∧ listenVotes s d = 0))) ∧
    (let s : State := setDom (w) 54 { domOn with onFio := true, selfSwitch := true }; let d := 54; s.ic.wakeHit = none ∧ d < 56 ∧ isOn s d = true ∧ (dom s d).onFio = true ∧ (dom s d).selfSwitch = true ∧ onNormal s dSQ = true) := ⟨by simp only [starts_iff]; decide +kernel, by simp only [starts_iff]; decide +kernel, by simp only [starts_iff]; decide +kernel, by simp only [starts_iff]; decide +kernel, by simp only [starts_iff]; decide +kernel, by simp only [starts_iff]; decide +kernel, by simp only [starts_iff]; decide +kernel, by decide +kernel⟩
theorem wit_SupplyHandshake :
    (let s : State := setDom (w) 20 { st := .retained, req := true, ack := true, pgood := true, phase := .isolated, isoAt := 1999999999000 }; let d : Nat := 20; let D := dom s d; s.ic.wakeHit = none ∧ D.phase = .isolated ∧ D.isoAt + 1000 ≤ s.tm.now ∧ D.st ≠ .on) ∧
    (let s : State := setDom (w) 20 { st := .off, pgood := true, phase := .requestLow }; let d : Nat := 20; let D := dom s d; s.ic.wakeHit = none ∧ D.phase = .requestLow ∧ D.req = false ∧ D.pgood = true) ∧
    (let s : State := setDom (w) 20 { st := .off, ack := true, pgood := true, phase := .requestLow }; let d : Nat := 20; let D := dom s d; s.ic.wakeHit = none ∧ D.phase = .requestLow ∧ D.req = false ∧ D.pgood = true) ∧
    (let s : State := setDom (w) 20 { st := .failed, pgood := true }; let d : Nat := 20; let D := dom s d; s.ic.wakeHit = none ∧ D.phase ≠ .requestLow ∧ D.req = false ∧ D.pgood = true ∧ (D.st = .waking ∨ D.st = .failed)) ∧
    (let s : State := setDom (w) 20 { st := .off, ack := true, phase := .requestLow }; let d : Nat := 20; let D := dom s d; s.ic.wakeHit = none ∧ D.phase = .requestLow ∧ D.req = false ∧ D.ack = true) ∧
    (let s : State := setDom (w) 20 { st := .off, ack := true, pgood := true, phase := .requestLow }; let d : Nat := 20; let D := dom s d; s.ic.wakeHit = none ∧ D.phase = .requestLow ∧ D.req = false ∧ D.ack = true) ∧
    (let s : State := setDom (w) 20 { st := .waking, ack := true, retrying := true }; let d : Nat := 20; let D := dom s d; s.ic.wakeHit = none ∧ D.phase ≠ .requestLow ∧ D.req = false ∧ D.ack = true ∧ (D.st = .waking ∨ D.st = .failed)) ∧
    (let s : State := setDom (w) 20 { st := .off, phase := .holdoff, offAt := 1999999980000 }; let d : Nat := 20; let D := dom s d; s.ic.wakeHit = none ∧ D.phase = .holdoff ∧ D.offAt + 20000 ≤ s.tm.now ∧ D.st ≠ .on) ∧
    (let s : State := setDom (w) 20 { st := .retained, phase := .holdoff, offAt := 1999999980000 }; let d : Nat := 20; let D := dom s d; s.ic.wakeHit = none ∧ D.phase = .holdoff ∧ D.offAt + 20000 ≤ s.tm.now ∧ D.st ≠ .on) ∧
    (let s : State := setDom (w) 20 { st := .waking, req := true, ack := true }; let d : Nat := 20; let D := dom s d; s.ic.wakeHit = none ∧ D.st = .waking ∧ D.req = true ∧ D.pgood = false) ∧
    (let s : State := setDom (w) 20 { st := .waking, retrying := true, since := 1999999000000, tries := 1 }; let d : Nat := 20; let D := dom s d; s.ic.wakeHit = none ∧ D.st = .waking ∧ D.retrying = true ∧ D.ack = false ∧ D.since + 1000000 ≤ s.tm.now) := by refine ⟨?_, ?_, ?_, ?_, ?_, ?_, ?_, ?_, ?_, ?_, ?_⟩ <;> decide +kernel
theorem wit_DomainsWakeAndFail :
    (let s : State := setDom (w) 55 { st := .waking, req := true, ack := true, pgood := true, goodAt := 1999999992000 }; let d : Nat := 55; let D := dom s d; d < 56 ∧ D.st = .waking ∧ D.pgood = true ∧ D.goodAt + 8000 ≤ s.tm.now ∧ D.checkDue = false) ∧
    (let s : State := setDom (w) 0 { st := .waking, req := true, ack := true, pgood := true, goodAt := 1999999992000 }; let d : Nat := 0; let D := dom s d; d < 56 ∧ D.st = .waking ∧ D.pgood = true ∧ D.goodAt + 8000 ≤ s.tm.now ∧ D.checkDue = false) ∧
    (let s : State := setDom (w) 16 { st := .waking, req := true, ack := true, pgood := true, checkDue := true, goodAt := 1999999992000 }; let d : Nat := 16; let D := dom s d; d < 56 ∧ D.st = .waking ∧ D.checkDue = true ∧ D.pgood = true ∧ D.goodAt + 8000 ≤ s.tm.now ∧ isOn s dCK = true ∧ 16 ≤ d ∧ d < 40 ∧ (∀ x, x < d → (dom s x).st ≠ .retained ∧ ((dom s x).st = .waking → (dom s x).checkDue = false))) ∧
    (let s : State := setDom ({ w with pw := { w.pw with slot := [(23, 5)], slotValid := 0x800000 } }) 39 { st := .waking, req := true, ack := true, pgood := true, checkDue := true, goodAt := 1999999992000 }; let d : Nat := 39; let D := dom s d; d < 56 ∧ D.st = .waking ∧ D.checkDue = true ∧ D.pgood = true ∧ D.goodAt + 8000 ≤ s.tm.now ∧ isOn s dCK = true ∧ 16 ≤ d ∧ d < 40 ∧ (∀ x, x < d → (dom s x).st ≠ .retained ∧ ((dom s x).st = .waking → (dom s x).checkDue = false))) ∧
    (let s : State := setDom (w) 20 { st := .waking, req := true, ack := true, reqAt := 1999999500000 }; let d : Nat := 20; let D := dom s d; d < 56 ∧ D.st = .waking ∧ D.req = true ∧ D.pgood = false ∧ D.reqAt + 500000 ≤ s.tm.now ∧ D.tries = 0) ∧
    (let s : State := setDom (w) 20 { st := .waking, req := true, ack := true, reqAt := 1999999500000, tries := 1 }; let d : Nat := 20; let D := dom s d; d < 56 ∧ D.st = .waking ∧ D.req = true ∧ D.pgood = false ∧ D.reqAt + 500000 ≤ s.tm.now ∧ D.tries ≠ 0) ∧
    (let s : State := w; let d : Nat := 20; let D := dom s d; d < 56 ∧ D.st = .on ∧ D.pgood = true) ∧
    (let s : State := wb; let d : Nat := 3; let D := dom s d; d < 56 ∧ D.st = .on ∧ D.pgood = true) ∧
    (let s : State := setDom ({ w with tm := { w.tm with now := 2000000000039 } }) 20 { domOn with phase := .quiesce }; let d : Nat := 20; let D := dom s d; d < 56 ∧ D.st = .on ∧ D.phase = .quiesce ∧ quiet s d = true ∧ inSleepSet s d = false ∧ ¬(d = dCK ∧ s.pw.sleep = .entry ∧ s.ck.extra.toNat.testBit 62 = true) ∧ aoEnd s = true) ∧
    (let s : State := setDom ({ w with tm := { w.tm with now := 2000000000039 }, pw := { w.pw with sleep := .entry, sleepSet := [20] } }) 20 { domOn with phase := .quiesce }; let d : Nat := 20; let D := dom s d; d < 56 ∧ D.st = .on ∧ D.phase = .quiesce ∧ quiet s d = true ∧ inSleepSet s d = true ∧ s.pw.sleep = .entry ∧ votes s d = 0 ∧ s.ic.wakeHit = none) := by refine ⟨?_, ?_, ?_, ?_, ?_, ?_, ?_, ?_, ?_, ?_⟩ <;> decide +kernel
theorem wit_SleepEntryAndWake :
    (let s : State := { w with cr := [], ic := { target := [(0, { sleepGranted := true }), (1, { sleepGranted := true }), (2, { sleepGranted := true }), (3, { sleepGranted := true })] } }; s.ic.wakeHit = none ∧ hostsAsleep s = true ∧ sleepIdle s none = true) ∧
    (let s : State := { (setDom w 20 { domOn with phase := .save }) with pw := { (setDom w 20 { domOn with phase := .save }).pw with sleep := .entry, sleepSet := [20] }, tm := { w.tm with now := 2000000000039 } }; s.ic.wakeHit = none ∧ s.pw.sleep = .entry ∧ (∀ d ∈ s.pw.sleepSet, (dom s d).st = .on ∧ (dom s d).phase = .save) ∧ s.ld.flush = none ∧ s.ld.due = [] ∧ (isOn s dCK = true ∨ (∀ d ∈ s.pw.sleepSet, willRetain s d = false)) ∧ aoEnd s = true) ∧
    (let s : State := { w with pw := { w.pw with sleep := .asleep, linkMask := 0x80000000, evtMask := 0x8000, timerEn := true, timerMs := 1, isoAt := 1999999000000 } }; let k := 4; let n := 0; let f := []; wakeOk s k n f = true ∧ s.pw.sleep = .asleep ∧ s.pw.wakeAt = none ∧ s.ic.wakeHit = none) ∧
    (let s : State := { w with pw := { w.pw with sleep := .asleep, linkMask := 0x80000000, evtMask := 0x8000, timerEn := true, timerMs := 1, isoAt := 1999999000000 } }; let k := 1; let n := 31; let f := []; wakeOk s k n f = true ∧ s.pw.sleep = .asleep ∧ s.pw.wakeAt = none ∧ s.ic.wakeHit = none) ∧
    (let s : State := { w with pw := { w.pw with sleep := .entry, linkMask := 0x80000000, evtMask := 0x8000, timerEn := true, timerMs := 1, isoAt := 1999999000000 } }; let k := 1; let n := 31; let f := []; wakeOk s k n f = true ∧ s.pw.sleep = .entry ∧ s.pw.wakeAt = none ∧ s.ic.wakeHit = none) ∧
    (let s : State := { w with pw := { w.pw with sleep := .asleep, linkMask := 0x80000000, evtMask := 0x8000, timerEn := true, timerMs := 1, isoAt := 1999999000000 } }; let l := 31; wakeOk s 1 l [] = true ∧ s.pw.sleep = .asleep ∧ s.pw.wakeAt = none ∧ s.ic.wakeHit = none) ∧
    (let s : State := { w with pw := { w.pw with sleep := .entry, linkMask := 0x80000000, evtMask := 0x8000, timerEn := true, timerMs := 1, isoAt := 1999999000000 } }; let l := 31; wakeOk s 1 l [] = true ∧ s.pw.sleep = .entry ∧ s.pw.wakeAt = none ∧ s.ic.wakeHit = none) ∧
    (let s : State := { w with pw := { w.pw with sleep := .asleep, linkMask := 0x80000000, evtMask := 0x8000, timerEn := true, timerMs := 1, isoAt := 1999999000000 } }; wakeOk s 4 0 [] = true ∧ s.pw.wakeAt = none ∧ s.ic.wakeHit = none) ∧
    (let s : State := w; s.pw.notice = false ∧ s.pw.edge ≠ .reset) ∧
    (let s : State := { w with pw := { w.pw with notice := true, latePower := [(63, 5, none)] } }; s.pw.notice = true) := by refine ⟨?_, ?_, ?_, ?_, ?_, ?_, ?_, ?_, ?_, ?_⟩ <;> decide +kernel
theorem wit_Resets :
    (let s : State := withEntry wb (ent 0x12 (cm 1 12 []) (.portDrained 12)); s.ic.wakeHit = none ∧ s.pw.edge ≠ .reset) ∧
    (let s : State := withEntry wb (ent 0x12 (cm 1 12 []) (.portDrained 12)); s.ic.wakeHit = none ∧ (s.pw.edge ≠ .reset ∨ s.pw.resetKind ≠ .cold)) ∧
    (let s : State := { w with pw := { w.pw with edge := .reset, resetKind := .block } }; s.ic.wakeHit = none ∧ (s.pw.edge ≠ .reset ∨ s.pw.resetKind ≠ .cold)) ∧
    (let s : State := { w with pw := { w.pw with edge := .reset, resetKind := .block } }; s.ic.wakeHit = none ∧ s.pw.edge = .reset ∧ s.pw.resetKind = .block) ∧
    (let s : State := State.reset; s.ic.wakeHit = none ∧ s.pw.edge = .reset ∧ s.pw.resetKind = .cold) ∧
    (let s : State := { w with sq := { w.sq with inSoftReset := true }, pw := { w.pw with softHold := true, softAt := 1999999990000 } }; s.ic.wakeHit = none ∧ s.sq.inSoftReset ∧ s.pw.softAt + softNs s ≤ s.tm.now) ∧
    (let s : State := { w with ck := { extra := 0x8000000000000000 }, sq := { w.sq with released := false, iir := [] }, pw := { w.pw with startUp := .romCheck } }; s.ic.wakeHit = none ∧ s.ck.extra.toNat.testBit 63 ∧ isOn s dSQ ∧ s.sq.inSoftReset = false) ∧
    (let s : State := { w with ck := { extra := 0x8000000000000000 }, sq := { w.sq with released := false, iir := [(7, { valid := true })] }, pw := { w.pw with startUp := .romCheck } }; s.ic.wakeHit = none ∧ s.ck.extra.toNat.testBit 63 ∧ isOn s dSQ ∧ s.sq.inSoftReset = false) := by refine ⟨?_, ?_, ?_, ?_, ?_, ?_, ?_, ?_⟩ <;> decide +kernel
theorem wit_SelfTestsAndSystem :
    (let s : State := w; let c : Cmd := cm 0x0B 53 []; let d := objNum c; let n := fld c 8 0 8; Starts s 0xB0 useTest c ∧ n = 0 ∧ d = 53 ∧ s.ld.flush = none) ∧
    (let s : State := { w with ld := { w.ld with flush := some { cause := 1, slot := 2, image := [(0, 0x57)] } } }; let c : Cmd := cm 0x0B 53 []; let d := objNum c; let n := fld c 8 0 8; Starts s 0xB0 useTest c ∧ n = 0 ∧ d = 53 ∧ s.ld.flush.isSome = true) ∧
    (let s : State := w; let c : Cmd := cm 0x0B 49 [(8,0,1)]; let d := objNum c; let n := fld c 8 0 8; let x := 0; Starts s 0xB0 useTest c ∧ n = 1 ∧ d = 49 ∧ (List.range 62).find? (fun n => !chanBusy s n) = some x) ∧
    (let s : State := { (w) with ck := { chan := (List.range 62).map (fun n => (n, { run := some { segs := [], noWait := true, total := 0 } })) } }; let c : Cmd := cm 0x0B 49 [(8,0,1)]; let d := objNum c; let n := fld c 8 0 8; Starts s 0xB0 useTest c ∧ n = 1 ∧ d = 49 ∧ (∀ x, x < 62 → chanBusy s x = true)) ∧
    (let s : State := { w with tst := { dom := [(16, { st := .running, test := 2, ring := 3 })] } }; let c : Cmd := cm 0x0B 16 [(8,0,2)]; let d := objNum c; let n := fld c 8 0 8; Starts s 0xB0 useTest c ∧ (n = 2 ∨ n = 3) ∧ testFits n d ∧ ((testOf s d).st ≠ .none ∨ loopWaits s d = true)) ∧
    (let s : State := { portOn w 0 p2 {} with tst := { loopDefer := [(0, some 1)] } }; let c : Cmd := cm 0x0B 8 [(8,0,3)]; let d := objNum c; let n := fld c 8 0 8; Starts s 0xB0 useTest c ∧ (n = 2 ∨ n = 3) ∧ testFits n d ∧ ((testOf s d).st ≠ .none ∨ loopWaits s d = true)) ∧
    (let s : State := setDom w 16 { st := .failed }; let c : Cmd := cm 0x0B 16 [(8,0,2)]; let d := objNum c; let n := fld c 8 0 8; Starts s 0xB0 useTest c ∧ (n = 2 ∨ n = 3) ∧ testFits n d ∧ (testOf s d).st = .none ∧ loopWaits s d = false ∧ isFailed s d = true) ∧
    (let s : State := w; let c : Cmd := cm 0x0B 16 [(8,0,2)]; let d := objNum c; let n := fld c 8 0 8; Starts s 0xB0 useTest c ∧ (n = 2 ∨ n = 3) ∧ testFits n d ∧ (testOf s d).st = .none ∧ loopWaits s d = false ∧ isFailed s d = false ∧ dataVotes (started s 0xB0 c) d = 0) ∧
    (let s : State := w; let c : Cmd := cm 0x0B 15 [(8,0,3)]; let d := objNum c; let n := fld c 8 0 8; Starts s 0xB0 useTest c ∧ (n = 2 ∨ n = 3) ∧ testFits n d ∧ (testOf s d).st = .none ∧ loopWaits s d = false ∧ isFailed s d = false ∧ dataVotes (started s 0xB0 c) d = 0) ∧
    (let s : State := wb; let c : Cmd := cm 0x0B 54 [(8,0,2),(9,0,1)]; let d := objNum c; let n := fld c 8 0 8; Starts s 0xB0 useTest c ∧ (n = 2 ∨ n = 3) ∧ testFits n d ∧ (testOf s d).st = .none ∧ loopWaits s d = false ∧ isFailed s d = false ∧ dataVotes (started s 0xB0 c) d ≠ 0 ∧ fbit c 9 0 = true) ∧
    (let s : State := wb; let c : Cmd := cm 0x0B 54 [(8,0,2)]; let d := objNum c; let n := fld c 8 0 8; Starts s 0xB0 useTest c ∧ (n = 2 ∨ n = 3) ∧ testFits n d ∧ (testOf s d).st = .none ∧ loopWaits s d = false ∧ isFailed s d = false ∧ dataVotes (started s 0xB0 c) d ≠ 0 ∧ fbit c 9 0 = false) ∧
    (let s : State := { wb with tst := { loopDefer := [(12, some 1)] } }; let c : Cmd := cm 1 12 [(8,0,2)]; Starts s 0xB1 useTest c ∧ fld c 8 0 8 ≤ 2 ∧ loopBusy s (objNum c) = true) ∧
    (let s : State := portOn w 12 p2 {}; let c : Cmd := cm 1 12 [(8,0,2)]; Starts s 0xB1 useTest c ∧ fld c 8 0 8 ≤ 2 ∧ loopBusy s (objNum c) = false ∧ (fld c 8 0 8 = 0 ∨ loopFree s (objNum c))) ∧
    (let s : State := wb; let c : Cmd := cm 1 12 []; Starts s 0xB1 useTest c ∧ fld c 8 0 8 ≤ 2 ∧ loopBusy s (objNum c) = false ∧ (fld c 8 0 8 = 0 ∨ loopFree s (objNum c))) ∧
    (let s : State := wb; let c : Cmd := cm 1 12 [(8,0,1),(9,0,1)]; Starts s 0xB1 useTest c ∧ fld c 8 0 8 ≤ 2 ∧ loopBusy s (objNum c) = false ∧ fld c 8 0 8 ≠ 0 ∧ loopFree s (objNum c) = false ∧ fbit c 9 0 = true) ∧
    (let s : State := wb; let c : Cmd := cm 1 12 [(8,0,1)]; Starts s 0xB1 useTest c ∧ fld c 8 0 8 ≤ 2 ∧ loopBusy s (objNum c) = false ∧ fld c 8 0 8 ≠ 0 ∧ loopFree s (objNum c) = false ∧ fbit c 9 0 = false) ∧
    (let s : State := w; let c : Cmd := cm 0 0 []; Starts s 0xF0 useByte8 c ∧ fld c 8 0 8 = 0) ∧
    (let s : State := setDom { w with pw := { w.pw with starter := true } } 55 { domOn with onFio := true }; let c : Cmd := cm 0 0 []; Starts s 0xF1 useNone c ∧ anyFio s = true) ∧
    (let s : State := { w with pw := { w.pw with starter := true } }; let c : Cmd := cm 0 0 []; Starts s 0xF1 useNone c ∧ anyFio s = false ∧ s.pw.starter) ∧
    (let s : State := w; let c : Cmd := cm 0 0 []; Starts s 0xF1 useNone c ∧ anyFio s = false ∧ s.pw.starter = false) ∧
    (let s : State := withEntry { ({ w with tst := { dom := [(16, { st := .running, test := 2, ring := 0 })] } }) with tm := w.tm } (ent 0xB0 (cm 0x0B 16 [(8,0,2)]) (.testEnd 16)); let d := 16; let o := (.fail 5 : SelfTestEnd); let T := testOf s d; s.ic.wakeHit = none ∧ (testOf s d).st = .running ∧ isOn s d ∧ testFits (testOf s d).test d ∧ (o = .aborted → dataVotes s d ≠ 0) ∧ T.ring < 8 ∧ o ≠ .aborted) ∧
    (let s : State := withEntry { ({ w with tst := { dom := [(16, { st := .running, test := 2, ring := 8 })] } }) with tm := w.tm } { ent 0xB0 (cm 0x0B 16 [(8,0,2)]) (.testEnd 16) with task := true, ring := 8 }; let d := 16; let o := (.pass : SelfTestEnd); let T := testOf s d; s.ic.wakeHit = none ∧ (testOf s d).st = .running ∧ isOn s d ∧ testFits (testOf s d).test d ∧ (o = .aborted → dataVotes s d ≠ 0) ∧ 8 ≤ T.ring ∧ o ≠ .aborted) ∧
    (let s : State := withEntry { (wb) with tm := w.tm, tst := ({ w with tst := { dom := [(54, { st := .running, test := 2, ring := 8 })] } }).tst } { ent 0xB0 (cm 0x0B 54 [(8,0,2)]) (.testEnd 54) with task := true, ring := 8 }; let d := 54; let o := (.aborted : SelfTestEnd); let T := testOf s d; s.ic.wakeHit = none ∧ (testOf s d).st = .running ∧ isOn s d ∧ testFits (testOf s d).test d ∧ (o = .aborted → dataVotes s d ≠ 0) ∧ 8 ≤ T.ring ∧ o = .aborted) ∧
    (let s : State := withEntry w { ent 0xB0 (cm 0x0B 49 [(8,0,1)]) with scratch := [3] }; let j := { ent 0xB0 (cm 0x0B 49 [(8,0,1)]) with scratch := [3] }; let acked := 0; let n := 3; Takes s acked j ∧ j.opcode = 0xB0 ∧ j.stage = 1 ∧ j.scratch = [n]) ∧
    (let s : State := withEntry { w with tst := { dom := [(16, { result := some 77 })] } } (ent 0xB0 (cm 0x0B 16 [(8,0,2)]) (.testEnd 16)); let j := ent 0xB0 (cm 0x0B 16 [(8,0,2)]) (.testEnd 16); let acked := 0; let r := 77; Takes s acked j ∧ j.opcode = 0xB0 ∧ j.stage = 1 ∧ j.scratch = [] ∧ (testOf s (objNum j.cmd)).result = some r) := ⟨by simp only [starts_iff]; decide +kernel, by simp only [starts_iff]; decide +kernel, by simp only [starts_iff]; decide +kernel, by simp only [starts_iff]; decide +kernel, by simp only [starts_iff]; decide +kernel, by simp only [starts_iff]; decide +kernel, by simp only [starts_iff]; decide +kernel, by simp only [starts_iff]; decide +kernel, by simp only [starts_iff]; decide +kernel, by simp only [starts_iff]; decide +kernel, by simp only [starts_iff]; decide +kernel, by simp only [starts_iff]; decide +kernel, by simp only [starts_iff]; decide +kernel, by simp only [starts_iff]; decide +kernel, by simp only [starts_iff]; decide +kernel, by simp only [starts_iff]; decide +kernel, by simp only [starts_iff]; decide +kernel, by simp only [starts_iff]; decide +kernel, by simp only [starts_iff]; decide +kernel, by simp only [starts_iff]; decide +kernel, by decide +kernel, by decide +kernel, by decide +kernel, by simp only [takes_iff]; decide +kernel, by simp only [takes_iff]; decide +kernel⟩
theorem wit_CheckChannels :
    (let s : State := w; let c : Cmd := cm 0x0C 61 [(8,0,2^64-1),(16,0,2^64-1),(24,0,64),(25,0,3)]; let n := objNum c; let w := fld c 24 0 8; Starts s 0x80 useCheckSet c ∧ n < 62 ∧ chanBusy s n = false ∧ c.sub = 0 ∧ 1 ≤ w ∧ w ≤ 64 ∧ fld c 8 0 64 < 2 ^ w ∧ fld c 16 0 64 < 2 ^ w ∧ (chan s n).xorout.toNat < 2 ^ w ∧ (chan s n).expected.toNat < 2 ^ w) ∧
    (let s : State := { w with ck := { chan := [(0, { xorout := 0, expected := 1 })] } }; let c : Cmd := cm 0x0C 0 [(8,0,1),(16,0,1),(24,0,1)]; let n := objNum c; let w := fld c 24 0 8; Starts s 0x80 useCheckSet c ∧ n < 62 ∧ chanBusy s n = false ∧ c.sub = 0 ∧ 1 ≤ w ∧ w ≤ 64 ∧ fld c 8 0 64 < 2 ^ w ∧ fld c 16 0 64 < 2 ^ w ∧ (chan s n).xorout.toNat < 2 ^ w ∧ (chan s n).expected.toNat < 2 ^ w) ∧
    (let s : State := w; let c : Cmd := cm 0x0C 61 [(8,0,5),(16,0,0xFFFFFFFF),(24,0,1)] 1; let n := objNum c; Starts s 0x80 useCheckSet c ∧ n < 62 ∧ chanBusy s n = false ∧ c.sub = 1 ∧ fld c 8 0 64 < 2 ^ (chan s n).width ∧ fld c 16 0 64 < 2 ^ (chan s n).width) ∧
    (let s : State := w; let c : Cmd := cm 0x0C 61 [(8,0,0x100000),(16,0,1),(18,0,4096)] 2; let n := objNum c; Starts s 0x80 useCheckSet c ∧ n < 62 ∧ chanBusy s n = false ∧ c.sub = 2 ∧ 1 ≤ fld c 18 0 16 ∧ fld c 18 0 16 ≤ 4096 ∧ fld c 8 0 64 % 16 = 0 ∧ bufOk s c (fld c 8 0 64) (fld c 16 0 8) (16 * fld c 18 0 16) = true) ∧
    (let s : State := w; let c : Cmd := cm 0x0C 0 [(8,0,0x10FFF0),(16,0,1),(18,0,1)] 2; let n := objNum c; Starts s 0x80 useCheckSet c ∧ n < 62 ∧ chanBusy s n = false ∧ c.sub = 2 ∧ 1 ≤ fld c 18 0 16 ∧ fld c 18 0 16 ≤ 4096 ∧ fld c 8 0 64 % 16 = 0 ∧ bufOk s c (fld c 8 0 64) (fld c 16 0 8) (16 * fld c 18 0 16) = true) ∧
    (let s : State := { w with ck := { chan := [(61, { count := 1, addr := 0x100000, window := 1 })] } }; let c : Cmd := cm 0x0C 61 [(8,0,1)]; let n := objNum c; let C := chan s n; Starts s 0x81 useCheckRun c ∧ n < 62 ∧ C.count ≠ 0 ∧ chanBusy s n = false ∧ bufOk s c C.addr.toNat C.window (16 * C.count) = true ∧ c.reads = []) ∧
    (let s : State := { w with ck := { chan := [(61, { count := 1, addr := 0x100000, window := 1 })] } }; let c : Cmd := { cm 0x0C 61 [] with reads := [{ error := true }] }; let n := objNum c; let C := chan s n; let r := { error := true }; let l := []; let o := (r.data ++ List.replicate (16 * C.count) 0).take (16 * C.count); Starts s 0x81 useCheckRun c ∧ n < 62 ∧ C.count ≠ 0 ∧ chanBusy s n = false ∧ bufOk s c C.addr.toNat C.window (16 * C.count) = true ∧ c.reads = r :: l ∧ (r.error = true ∨ listBad s o C.count = true)) ∧
    (let s : State := { w with ck := { chan := [(61, { count := 1, addr := 0x100000, window := 1 })] } }; let c : Cmd := { cm 0x0C 61 [] with reads := [{}] }; let n := objNum c; let C := chan s n; let r := {}; let l := []; let o := (r.data ++ List.replicate (16 * C.count) 0).take (16 * C.count); Starts s 0x81 useCheckRun c ∧ n < 62 ∧ C.count ≠ 0 ∧ chanBusy s n = false ∧ bufOk s c C.addr.toNat C.window (16 * C.count) = true ∧ c.reads = r :: l ∧ (r.error = true ∨ listBad s o C.count = true)) ∧
    (let s : State := { w with ck := { chan := [(61, { count := 1, addr := 0x100000, window := 1 })] } }; let c : Cmd := { cm 0x0C 61 [(8,0,1)] with reads := [{ data := le 8 0x100000 ++ le 4 9 ++ [1, 0, 0, 0] }] }; let n := objNum c; let C := chan s n; let r := { data := le 8 0x100000 ++ le 4 9 ++ [1, 0, 0, 0] }; let l := []; let o := (r.data ++ List.replicate (16 * C.count) 0).take (16 * C.count); Starts s 0x81 useCheckRun c ∧ n < 62 ∧ C.count ≠ 0 ∧ chanBusy s n = false ∧ bufOk s c C.addr.toNat C.window (16 * C.count) = true ∧ c.reads = r :: l ∧ r.error = false ∧ listBad s o C.count = false ∧ fbit c 8 0 = true) ∧
    (let s : State := { w with ck := { chan := [(61, { count := 1, addr := 0x100000, window := 1 })] } }; let c : Cmd := { cm 0x0C 61 [] with reads := [{ data := le 8 0x100000 ++ le 4 9 ++ [1, 0, 0, 0] }] }; let n := objNum c; let C := chan s n; let r := { data := le 8 0x100000 ++ le 4 9 ++ [1, 0, 0, 0] }; let l := []; let o := (r.data ++ List.replicate (16 * C.count) 0).take (16 * C.count); Starts s 0x81 useCheckRun c ∧ n < 62 ∧ C.count ≠ 0 ∧ chanBusy s n = false ∧ bufOk s c C.addr.toNat C.window (16 * C.count) = true ∧ c.reads = r :: l ∧ r.error = false ∧ listBad s o C.count = false ∧ fbit c 8 0 = false) ∧
    (let s : State := { w with ck := { chan := [(61, { compare := true, expected := 0xE3069283, run := some { segs := [(0x100000, 9)], noWait := true, total := 9 } })] } }; let n := 61; let r := { segs := [(0x100000, 9)], noWait := true, total := 9 }; let x : FabReply := { data := checkText }; (chan s n).run = some r ∧ chansRun s = true ∧ (x.error = true ∨ r.total ≤ x.data.length)) ∧
    (let s : State := { w with ck := { chan := [(61, { compare := true, expected := 1, run := some { segs := [(0x100000, 9)], noWait := true, total := 9 } })] } }; let n := 61; let r := { segs := [(0x100000, 9)], noWait := true, total := 9 }; let x : FabReply := { data := checkText }; (chan s n).run = some r ∧ chansRun s = true ∧ (x.error = true ∨ r.total ≤ x.data.length)) ∧
    (let s : State := { w with ck := { chan := [(61, { compare := false, run := some { segs := [(0x100000, 9)], noWait := false, total := 9 } })] } }; let n := 61; let r := { segs := [(0x100000, 9)], noWait := false, total := 9 }; let x : FabReply := { data := checkText }; (chan s n).run = some r ∧ chansRun s = true ∧ (x.error = true ∨ r.total ≤ x.data.length)) ∧
    (let s : State := { w with ck := { chan := [(61, { compare := true, run := some { segs := [(0x100000, 9)], noWait := false, total := 9 } })] } }; let n := 61; let r := { segs := [(0x100000, 9)], noWait := false, total := 9 }; let x : FabReply := { data := [1, 2], error := true }; (chan s n).run = some r ∧ chansRun s = true ∧ (x.error = true ∨ r.total ≤ x.data.length)) ∧
    (let s : State := withEntry { w with ck := { chan := [(61, { result := 9, outcome := 2 })] } } { ent 0x81 (cm 0x0C 61 []) (.checkEnd 61) with scratch := [32769], progress := 32768 }; let j := { ent 0x81 (cm 0x0C 61 []) (.checkEnd 61) with scratch := [32769], progress := 32768 }; let acked := 0; let n := objNum j.cmd; Takes s acked j ∧ j.opcode = 0x81 ∧ j.stage = 1 ∧ j.cond = .checkEnd n ∧ (chan s n).run = none ∧ (chan s n).fabricErr = false ∧ j.scratch.headD 0 < j.progress.toNat + 32768) ∧
    (let s : State := withEntry { w with ck := { chan := [(61, { result := 9, outcome := 3 })] } } { ent 0x81 (cm 0x0C 61 []) (.checkEnd 61) with scratch := [32769], progress := 32768 }; let j := { ent 0x81 (cm 0x0C 61 []) (.checkEnd 61) with scratch := [32769], progress := 32768 }; let acked := 0; let n := objNum j.cmd; Takes s acked j ∧ j.opcode = 0x81 ∧ j.stage = 1 ∧ j.cond = .checkEnd n ∧ (chan s n).run = none ∧ (chan s n).fabricErr = false ∧ j.scratch.headD 0 < j.progress.toNat + 32768) := ⟨by simp only [starts_iff]; decide +kernel, by simp only [starts_iff]; decide +kernel, by simp only [starts_iff]; decide +kernel, by simp only [starts_iff]; decide +kernel, by simp only [starts_iff]; decide +kernel, by simp only [starts_iff]; decide +kernel, by simp only [starts_iff]; decide +kernel, by simp only [starts_iff]; decide +kernel, by simp only [starts_iff]; decide +kernel, by simp only [starts_iff]; decide +kernel, by decide +kernel, by decide +kernel, by decide +kernel, by decide +kernel, by simp only [takes_iff]; decide +kernel, by simp only [takes_iff]; decide +kernel⟩
theorem wit_LedgerFlushes :
    (let s : State := { w with ld := { w.ld with flush := some { cause := 1, slot := 2, image := [(0, 0x57)] } } }; let c : Cmd := cm 0 0 []; Starts s 0x91 useLedgerFlush c ∧ c.sub = 0 ∧ s.ld.flush.isSome = true) ∧
    (let s : State := { w with ld := { w.ld with lastEnd := some 1999000000001 } }; let c : Cmd := cm 0 0 []; Starts s 0x91 useLedgerFlush c ∧ c.sub = 0 ∧ s.ld.flush = none ∧ tooSoon s 1 = true) ∧
    (let s : State := w; let slot := nextSlot (retiredOf s) (match inForce s with | some (c, _) => c | none => 3); let c : Cmd := cm 0 0 []; Starts s 0x91 useLedgerFlush c ∧ c.sub = 0 ∧ s.ld.flush = none ∧ tooSoon s 1 = false ∧ slot.isSome) ∧
    (let s : State := { w with ld := { w.ld with lastEnd := some 1999000000000, pend := { add := [(0xB10, 1)] } } }; let slot := nextSlot (retiredOf s) (match inForce s with | some (c, _) => c | none => 3); let c : Cmd := cm 0 0 []; Starts s 0x91 useLedgerFlush c ∧ c.sub = 0 ∧ s.ld.flush = none ∧ tooSoon s 1 = false ∧ slot.isSome) ∧
    (let s : State := { w with ld := { w.ld with worn := true } }; let slot := nextSlot (retiredOf s) (match inForce s with | some (c, _) => c | none => 3); let c : Cmd := cm 0 0 []; Starts s 0x91 useLedgerFlush c ∧ c.sub = 0 ∧ s.ld.flush = none ∧ tooSoon s 1 = false ∧ slot = none) ∧
    (let s : State := { w with ld := { w.ld with fuse := [(96, fuseRow 1)] } }; let c : Cmd := cm 0 0 [] 2; let k := { c with sub := 2 }; Starts s 0x91 useLedgerFlush k ∧ tally s 12 = 1) ∧
    (let s : State := { w with ld := { w.ld with flush := some { cause := 1, slot := 2, image := [(0, 0x57)] } } }; let c : Cmd := cm 0 0 [] 2; let k := { c with sub := 2 }; Starts s 0x91 useLedgerFlush k ∧ tally s 12 ≠ 1 ∧ s.ld.flush.isSome = true) ∧
    (let s : State := w; let slot := nextSlot (retiredOf s) (match inForce s with | some (c, _) => c | none => 3); let c : Cmd := cm 0 0 [] 2; let k := { c with sub := 2 }; Starts s 0x91 useLedgerFlush k ∧ tally s 12 ≠ 1 ∧ s.ld.flush = none ∧ slot.isSome) ∧
    (let s : State := { w with ld := { w.ld with worn := true } }; let slot := nextSlot (retiredOf s) (match inForce s with | some (c, _) => c | none => 3); let c : Cmd := cm 0 0 [] 2; let k := { c with sub := 2 }; Starts s 0x91 useLedgerFlush k ∧ tally s 12 ≠ 1 ∧ s.ld.flush = none ∧ slot = none) ∧
    (let s : State := withEntry w (ent 0x91 (cm 0 0 [] 2) .flushEnd); let j := ent 0x91 (cm 0 0 [] 2) .flushEnd; let acked := 0; Takes s acked j ∧ j.opcode = 0x91 ∧ j.cmd.sub ≠ 1 ∧ j.stage = 1 ∧ j.cond = .flushEnd) ∧
    (let s : State := w; let c : Cmd := cm 0 0 [(8,0,60)] 1; let k := { c with sub := 1 }; Starts s 0x91 useLedgerFlush k ∧ 1 ≤ fld c 8 0 8 ∧ fld c 8 0 8 ≤ 60) ∧
    (let s : State := w; let c : Cmd := cm 0 0 [(8,0,1)] 1; let k := { c with sub := 1 }; Starts s 0x91 useLedgerFlush k ∧ 1 ≤ fld c 8 0 8 ∧ fld c 8 0 8 ≤ 60) ∧
    (let s : State := w; let c : Cmd := cm 0 0 [] 1; let k := { c with sub := 1 }; Starts s 0x91 useLedgerFlush k ∧ (fld c 8 0 8 = 0 ∨ 60 < fld c 8 0 8)) ∧
    (let s : State := w; let c : Cmd := cm 0 0 [(8,0,61)] 1; let k := { c with sub := 1 }; Starts s 0x91 useLedgerFlush k ∧ (fld c 8 0 8 = 0 ∨ 60 < fld c 8 0 8)) ∧
    (let s : State := { w with ld := { w.ld with lastEnd := some 1100000000000 } }; let slot := nextSlot (retiredOf s) (match inForce s with | some (c, _) => c | none => 3); s.ic.wakeHit = none ∧ s.pw.edge = .live ∧ s.ld.due.contains 0 = false ∧ (∀ f, s.ld.flush = some f → f.cause ≠ 0) ∧ max s.ld.wornAt (match s.ld.lastEnd with | some t => t | none => s.pw.resetAt) + s.ld.interval * 60000000000 ≤ s.tm.now ∧ s.ld.flush = none ∧ slot.isSome) ∧
    (let s : State := { w with ld := { w.ld with lastEnd := some 1100000000000, worn := true } }; let slot := nextSlot (retiredOf s) (match inForce s with | some (c, _) => c | none => 3); s.ic.wakeHit = none ∧ s.pw.edge = .live ∧ s.ld.due.contains 0 = false ∧ (∀ f, s.ld.flush = some f → f.cause ≠ 0) ∧ max s.ld.wornAt (match s.ld.lastEnd with | some t => t | none => s.pw.resetAt) + s.ld.interval * 60000000000 ≤ s.tm.now ∧ s.ld.flush = none ∧ slot = none) ∧
    (let s : State := { w with ld := { w.ld with lastEnd := some 1100000000000, flush := some { cause := 1, slot := 2, image := [(0, 0x57)] } } }; s.ic.wakeHit = none ∧ s.pw.edge = .live ∧ s.ld.due.contains 0 = false ∧ (∀ f, s.ld.flush = some f → f.cause ≠ 0) ∧ max s.ld.wornAt (match s.ld.lastEnd with | some t => t | none => s.pw.resetAt) + s.ld.interval * 60000000000 ≤ s.tm.now ∧ s.ld.flush.isSome = true) ∧
    (let s : State := { w with ld := { w.ld with flush := some { cause := 1, slot := 2, image := [(0, 0x57)] } } }; let f := { cause := 1, slot := 2, image := [(0, 0x57)] }; s.ld.flush = some f ∧ isOn s dLD = true ∧ s.ld.due = []) ∧
    (let s : State := { w with ld := { w.ld with flush := some { cause := 1, slot := 2, image := [(0, 0x57)] } } }; let f := { cause := 1, slot := 2, image := [(0, 0x57)] }; s.ld.flush = some f ∧ isOn s dLD = true ∧ f.attempt = 0) ∧
    (let s : State := { w with ld := { w.ld with flush := some { cause := 1, slot := 2, image := [(0, 0x57)], attempt := 1 } } }; let f := { cause := 1, slot := 2, image := [(0, 0x57)], attempt := 1 }; let retired := Nat.lor (imgGet f.image 7 1) (2 ^ f.slot); let k := 3; s.ld.flush = some f ∧ isOn s dLD = true ∧ f.attempt ≠ 0 ∧ nextSlot retired f.slot = some k) ∧
    (let s : State := { w with ld := { w.ld with flush := some { cause := 1, slot := 2, image := [(7, 11)], attempt := 1 } } }; let f := { cause := 1, slot := 2, image := [(7, 11)], attempt := 1 }; let retired := Nat.lor (imgGet f.image 7 1) (2 ^ f.slot); s.ld.flush = some f ∧ isOn s dLD = true ∧ f.attempt ≠ 0 ∧ nextSlot retired f.slot = none ∧ s.ld.due = []) := ⟨by simp only [starts_iff]; decide +kernel, by simp only [starts_iff]; decide +kernel, by simp only [starts_iff]; decide +kernel, by simp only [starts_iff]; decide +kernel, by simp only [starts_iff]; decide +kernel, by simp only [starts_iff]; decide +kernel, by simp only [starts_iff]; decide +kernel, by simp only [starts_iff]; decide +kernel, by simp only [starts_iff]; decide +kernel, by simp only [takes_iff]; decide +kernel, by simp only [starts_iff]; decide +kernel, by simp only [starts_iff]; decide +kernel, by simp only [starts_iff]; decide +kernel, by simp only [starts_iff]; decide +kernel, by decide +kernel, by decide +kernel, by decide +kernel, by decide +kernel, by decide +kernel, by decide +kernel, by decide +kernel⟩
theorem wit_LedgerReadAndSample :
    (let s : State := { w with ld := { w.ld with flush := some { cause := 1, slot := 2, image := [(0, 0x57)] } } }; let c : Cmd := cm 0 0 [(8,0,0x100000),(16,0,1),(18,0,65528),(20,0,8)]; let a := fld c 8 0 64; let n := fld c 20 0 32; Starts s 0x90 useLedgerRead c ∧ fld c 18 0 16 % 8 = 0 ∧ n % 8 = 0 ∧ fld c 18 0 16 + n ≤ 65536 ∧ bufOk s c a (fld c 16 0 8) n = true ∧ s.ld.flush.isSome = true) ∧
    (let s : State := w; let c : Cmd := { cm 0 0 [(8,0,0x100000),(16,0,1),(18,0,0),(20,0,8)] with writeAck := none }; let a := fld c 8 0 64; let n := fld c 20 0 32; Starts s 0x90 useLedgerRead c ∧ fld c 18 0 16 % 8 = 0 ∧ n % 8 = 0 ∧ fld c 18 0 16 + n ≤ 65536 ∧ bufOk s c a (fld c 16 0 8) n = true ∧ s.ld.flush = none ∧ c.writeAck = none) ∧
    (let s : State := w; let c : Cmd := { cm 0 0 [(8,0,0x100000),(16,0,1),(18,0,0),(20,0,8)] with writeAck := some true }; let a := fld c 8 0 64; let n := fld c 20 0 32; Starts s 0x90 useLedgerRead c ∧ fld c 18 0 16 % 8 = 0 ∧ n % 8 = 0 ∧ fld c 18 0 16 + n ≤ 65536 ∧ bufOk s c a (fld c 16 0 8) n = true ∧ s.ld.flush = none ∧ c.writeAck = some true) ∧
    (let s : State := { w with ld := { w.ld with array := [(65528, 7)] } }; let c : Cmd := cm 0 0 [(8,0,0x100000),(16,0,1),(18,0,65528),(20,0,8)]; let a := fld c 8 0 64; let n := fld c 20 0 32; Starts s 0x90 useLedgerRead c ∧ fld c 18 0 16 % 8 = 0 ∧ n % 8 = 0 ∧ fld c 18 0 16 + n ≤ 65536 ∧ bufOk s c a (fld c 16 0 8) n = true ∧ s.ld.flush = none ∧ c.writeAck = some false ∧ n ≤ 4096) ∧
    (let s : State := w; let c : Cmd := cm 0 0 [(8,0,0x100000),(16,0,1),(18,0,0),(20,0,4096)]; let a := fld c 8 0 64; let n := fld c 20 0 32; Starts s 0x90 useLedgerRead c ∧ fld c 18 0 16 % 8 = 0 ∧ n % 8 = 0 ∧ fld c 18 0 16 + n ≤ 65536 ∧ bufOk s c a (fld c 16 0 8) n = true ∧ s.ld.flush = none ∧ c.writeAck = some false ∧ n ≤ 4096) ∧
    (let s : State := w; let c : Cmd := cm 0 0 [(8,0,0x100001),(16,0,1)]; let a := fld c 8 0 64; let n := fld c 20 0 32; Starts s 0x90 useLedgerRead c ∧ fld c 18 0 16 % 8 = 0 ∧ n % 8 = 0 ∧ fld c 18 0 16 + n ≤ 65536 ∧ bufOk s c a (fld c 16 0 8) n = true ∧ s.ld.flush = none ∧ c.writeAck = some false ∧ n ≤ 4096) ∧
    (let s : State := w; let c : Cmd := cm 0 0 [(8,0,0x100000),(16,0,1),(18,0,0),(20,0,4104)]; let a := fld c 8 0 64; let n := fld c 20 0 32; Starts s 0x90 useLedgerRead c ∧ fld c 18 0 16 % 8 = 0 ∧ n % 8 = 0 ∧ fld c 18 0 16 + n ≤ 65536 ∧ bufOk s c a (fld c 16 0 8) n = true ∧ s.ld.flush = none ∧ c.writeAck = some false ∧ 4096 < n) ∧
    (let s : State := w; s.ic.wakeHit = none ∧ s.pw.edge ≠ .reset) ∧
    (let s : State := { w with ld := { w.ld with pend := { add := [(0x240, 3)] } } }; s.ic.wakeHit = none ∧ s.pw.edge ≠ .reset) ∧
    (let s : State := State.reset; s.ic.wakeHit = none ∧ s.pw.edge = .reset) := ⟨by simp only [starts_iff]; decide +kernel, by simp only [starts_iff]; decide +kernel, by simp only [starts_iff]; decide +kernel, by simp only [starts_iff]; decide +kernel, by simp only [starts_iff]; decide +kernel, by simp only [starts_iff]; decide +kernel, by simp only [starts_iff]; decide +kernel, by decide +kernel, by decide +kernel, by decide +kernel⟩
theorem wit_TallyWriteAndRead :
    (let s : State := w; let c : Cmd := cm 0x0E 13 []; let n := objNum c; let v := fld c 8 0 56; Starts s 0x92 useTallyWrite c ∧ tallyBad n v = true) ∧
    (let s : State := w; let c : Cmd := cm 0x0E 7 [(8,0,6)]; let n := objNum c; let v := fld c 8 0 56; Starts s 0x92 useTallyWrite c ∧ tallyBad n v = true) ∧
    (let s : State := w; let c : Cmd := cm 0x0E 8 [(8,0,33)]; let n := objNum c; let v := fld c 8 0 56; Starts s 0x92 useTallyWrite c ∧ tallyBad n v = true) ∧
    (let s : State := { w with ld := { w.ld with fuse := (List.range 8).map (fun i => (72 + i, fuseRow 1)) } }; let c : Cmd := cm 0x0E 9 []; let n := objNum c; let v := fld c 8 0 56; let used := burnt s n; Starts s 0x92 useTallyWrite c ∧ tallyBad n v = false ∧ 8 ≤ used) ∧
    (let s : State := { w with ld := { w.ld with fuse := [(72, fuseRow 1)] } }; let c : Cmd := cm 0x0E 9 [(8,0,1)]; let n := objNum c; let v := fld c 8 0 56; let used := burnt s n; Starts s 0x92 useTallyWrite c ∧ tallyBad n v = false ∧ used < 8 ∧ tally s n = v) ∧
    (let s : State := w; let c : Cmd := cm 0x0E 9 []; let n := objNum c; let v := fld c 8 0 56; let used := burnt s n; Starts s 0x92 useTallyWrite c ∧ tallyBad n v = false ∧ used < 8 ∧ tally s n = v) ∧
    (let s : State := wk .distaff; let c : Cmd := cm 0x0E 9 []; let n := objNum c; let v := fld c 8 0 56; let used := burnt s n; Starts s 0x92 useTallyWrite c ∧ tallyBad n v = false ∧ used < 8 ∧ tally s n ≠ v ∧ tallyBusy s n v = true) ∧
    (let s : State := wk .member; let c : Cmd := cm 0x0E 10 [(8,0,3)]; let n := objNum c; let v := fld c 8 0 56; let used := burnt s n; Starts s 0x92 useTallyWrite c ∧ tallyBad n v = false ∧ used < 8 ∧ tally s n ≠ v ∧ tallyBusy s n v = true) ∧
    (let s : State := w; let c : Cmd := cm 0x0E 12 [(8,0,1)]; let n := objNum c; let v := fld c 8 0 56; let used := burnt s n; let bad := min c.fuseBad (8 - used); Starts s 0x92 useTallyWrite c ∧ tallyBad n v = false ∧ used < 8 ∧ tally s n ≠ v ∧ tallyBusy s n v = false ∧ used + bad < 8) ∧
    (let s : State := { w with ld := { w.ld with fuse := [(0, fuseRow 1)] } }; let c : Cmd := cm 0x0E 0 [(8,0,5)]; let n := objNum c; let v := fld c 8 0 56; let used := burnt s n; let bad := min c.fuseBad (8 - used); Starts s 0x92 useTallyWrite c ∧ tallyBad n v = false ∧ used < 8 ∧ tally s n ≠ v ∧ tallyBusy s n v = false ∧ used + bad < 8) ∧
    (let s : State := w; let c : Cmd := { cm 0x0E 8 [(8,0,32)] with fuseBad := 7 }; let n := objNum c; let v := fld c 8 0 56; let used := burnt s n; let bad := min c.fuseBad (8 - used); Starts s 0x92 useTallyWrite c ∧ tallyBad n v = false ∧ used < 8 ∧ tally s n ≠ v ∧ tallyBusy s n v = false ∧ used + bad < 8) ∧
    (let s : State := w; let c : Cmd := { cm 0x0E 8 [(8,0,32)] with fuseBad := 9 }; let n := objNum c; let v := fld c 8 0 56; let used := burnt s n; let bad := min c.fuseBad (8 - used); Starts s 0x92 useTallyWrite c ∧ tallyBad n v = false ∧ used < 8 ∧ tally s n ≠ v ∧ tallyBusy s n v = false ∧ used + bad = 8) ∧
    (let s : State := { w with ld := { w.ld with fuse := [(72, fuseRow 1), (73, fuseRow 0)] } }; let c : Cmd := cm 0x0E 9 []; Starts s 0x93 useNone c) ∧
    (let s : State := withEntry w { ent 0x92 (cm 0x0E 1 []) .flushEnd with scratch := [34, 0] }; let j : JEntry := { ent 0x92 (cm 0x0E 1 []) .flushEnd with scratch := [34, 0] }; let st : Nat := 34; let res : Nat := 0; let acked := 0; Takes s acked j ∧ j.opcode = 0x92 ∧ j.cond = .flushEnd ∧ j.scratch = [st, res]) := ⟨by simp only [starts_iff]; decide +kernel, by simp only [starts_iff]; decide +kernel, by simp only [starts_iff]; decide +kernel, by simp only [starts_iff]; decide +kernel, by simp only [starts_iff]; decide +kernel, by simp only [starts_iff]; decide +kernel, by simp only [starts_iff]; decide +kernel, by simp only [starts_iff]; decide +kernel, by simp only [starts_iff]; decide +kernel, by simp only [starts_iff]; decide +kernel, by simp only [starts_iff]; decide +kernel, by simp only [starts_iff]; decide +kernel, by simp only [starts_iff]; decide +kernel, by simp only [takes_iff]; decide +kernel⟩
theorem wit_StackAndPlyInstructions :
    (let s : State := wk .member; let c : Cmd := cm 0 0 [(8,0,2),(12,0,0xE),(16,0,0x1000)]; Starts s 0xA0 useStackForm c ∧ (inStarter s ∨ s.stk.st ≠ .none)) ∧
    (let s : State := { (w) with pw := { w.pw with starter := true } }; let c : Cmd := cm 0 0 [(8,0,2),(12,0,0xE),(16,0,0x1000)]; Starts s 0xA0 useStackForm c ∧ (inStarter s ∨ s.stk.st ≠ .none)) ∧
    (let s : State := w; let c : Cmd := cm 0 0 [(8,0,2),(12,0,0xE),(16,0,0x1000)]; let own := fld c 8 0 5 = ownInst s ∧ eligible s ∧ (fld c 12 0 32).testBit (ownInst s) ∧ stackPortsBad s (fld c 16 0 32) = false; Starts s 0xA0 useStackForm c ∧ inStarter s = false ∧ s.stk.st = .none ∧ ¬ own) ∧
    (let s : State := inst2 w {}; let c : Cmd := cm 0 0 [(8,0,2),(12,0,0xE),(16,0,0x1000)]; let own := fld c 8 0 5 = ownInst s ∧ eligible s ∧ (fld c 12 0 32).testBit (ownInst s) ∧ stackPortsBad s (fld c 16 0 32) = false; Starts s 0xA0 useStackForm c ∧ inStarter s = false ∧ s.stk.st = .none ∧ ¬ own) ∧
    (let s : State := inst2 (portOn w 12 p2 lineUp) {}; let c : Cmd := cm 0 0 [(8,0,2),(12,0,0xE),(16,0,0x1000)]; let own := fld c 8 0 5 = ownInst s ∧ eligible s ∧ (fld c 12 0 32).testBit (ownInst s) ∧ stackPortsBad s (fld c 16 0 32) = false; Starts s 0xA0 useStackForm c ∧ inStarter s = false ∧ s.stk.st = .none ∧ own) ∧
    (let s : State := wk .member; let c : Cmd := cm 0 0 [(8,0,1),(16,0,0x1000)]; Starts s 0xA1 useStackJoin c ∧ (inStarter s ∨ s.stk.st ≠ .none)) ∧
    (let s : State := inst2 (portOn w 12 p2 lineUp) {}; let c : Cmd := cm 0 0 [(8,0,32),(16,0,0x1000)]; Starts s 0xA1 useStackJoin c ∧ inStarter s = false ∧ s.stk.st = .none ∧ 32 ≤ fld c 8 0 8) ∧
    (let s : State := inst2 (portOn w 12 p2 lineUp) {}; let c : Cmd := cm 0 0 [(8,0,255),(16,0,0x1000)]; Starts s 0xA1 useStackJoin c ∧ inStarter s = false ∧ s.stk.st = .none ∧ 32 ≤ fld c 8 0 8) ∧
    (let s : State := w; let c : Cmd := cm 0 0 [(8,0,31),(16,0,0x1000)]; Starts s 0xA1 useStackJoin c ∧ inStarter s = false ∧ s.stk.st = .none ∧ fld c 8 0 8 < 32 ∧ stackPortsBad s (fld c 16 0 32) = true) ∧
    (let s : State := inst2 (portOn w 12 p2 lineUp) {}; let c : Cmd := cm 0 0 [(8,0,1),(16,0,0x1000)]; Starts s 0xA1 useStackJoin c ∧ inStarter s = false ∧ s.stk.st = .none ∧ fld c 8 0 8 < 32 ∧ stackPortsBad s (fld c 16 0 32) = false) ∧
    (let s : State := w; let c : Cmd := cm 0 0 [(8,0,31)]; Starts s 0xA1 useStackJoin c ∧ inStarter s = false ∧ s.stk.st = .none ∧ fld c 8 0 8 < 32 ∧ stackPortsBad s (fld c 16 0 32) = false) ∧
    (let s : State := w; let c : Cmd := cm 0 0 []; Starts s 0xA2 useNone c ∧ (inStarter s ∨ s.stk.st ≠ .orphan)) ∧
    (let s : State := { w with stk := stk .orphan }; let c : Cmd := cm 0 0 []; Starts s 0xA2 useNone c ∧ inStarter s = false ∧ s.stk.st = .orphan ∧ eligible s = false) ∧
    (let s : State := inst2 wb { stk .orphan with genSeen := [(3, 9)] }; let c : Cmd := cm 0 0 []; Starts s 0xA2 useNone c ∧ inStarter s = false ∧ s.stk.st = .orphan ∧ eligible s) ∧
    (let s : State := setDom (inst2 wb { stk .orphan with gen := 2 ^ 32 - 1 }) dTU {}; let c : Cmd := cm 0 0 []; Starts s 0xA2 useNone c ∧ inStarter s = false ∧ s.stk.st = .orphan ∧ eligible s) ∧
    (let s : State := w; let c : Cmd := cm 0 0 []; Starts s 0xA3 useNone c ∧ s.stk.st = .none) ∧
    (let s : State := wk .distaff; let c : Cmd := cm 0 0 []; let alone := ∀ i, i < 32 → reachable s i = true → i = ownInst s; Starts s 0xA3 useNone c ∧ s.stk.st = .distaff ∧ ¬ alone) ∧
    (let s : State := inst2 { wb with ct := { tab := [(9, { st := .admitted, img := { img with stackMask := 8 } })] } } (stk .member); let c : Cmd := cm 0 0 []; Starts s 0xA3 useNone c ∧ s.stk.st ≠ .none ∧ stackContracts s (fun _ => true) ≠ []) ∧
    (let s : State := wk .member; let c : Cmd := cm 0 0 []; let alone := ∀ i, i < 32 → reachable s i = true → i = ownInst s; Starts s 0xA3 useNone c ∧ s.stk.st ≠ .none ∧ (s.stk.st = .distaff → alone) ∧ stackContracts s (fun _ => true) = []) ∧
    (let s : State := inst2 wb { stk .distaff with distaff := 2, reach := 4 }; let c : Cmd := cm 0 0 []; let alone := ∀ i, i < 32 → reachable s i = true → i = ownInst s; Starts s 0xA3 useNone c ∧ s.stk.st ≠ .none ∧ (s.stk.st = .distaff → alone) ∧ stackContracts s (fun _ => true) = []) ∧
    (let s : State := { (w) with pw := { w.pw with starter := true } }; let c : Cmd := cm 1 24 [(8,0,1),(9,0,3),(16,0,0x010203040506)]; Starts s 0x16 usePortPly c ∧ plyJoin c ∧ inStarter s) ∧
    (let s : State := w; let c : Cmd := cm 1 24 [(8,0,1),(9,0,3),(16,0,0x010203040506)]; Starts s 0x16 usePortPly c ∧ plyJoin c ∧ inStarter s = false ∧ plyBad s c = true) ∧
    (let s : State := wk .member; let c : Cmd := { cm 1 24 [(8,0,1),(9,0,3),(16,0,0x010203040506)] with partnerLow := true }; Starts s 0x16 usePortPly c ∧ plyJoin c ∧ inStarter s = false ∧ plyBad s c = true) ∧
    (let s : State := inst2 (portOn w 30 p2 {}) (stk .member); let c : Cmd := cm 1 24 [(8,0,1),(9,0,3),(16,0,0x010203040506)]; Starts s 0x16 usePortPly c ∧ plyJoin c ∧ inStarter s = false ∧ plyBad s c = false ∧ (upperLanes s ∨ c.partnerLanes)) ∧
    (let s : State := wk .member; let c : Cmd := { cm 1 24 [(8,0,1),(9,0,3),(16,0,0x010203040506)] with partnerLanes := true }; Starts s 0x16 usePortPly c ∧ plyJoin c ∧ inStarter s = false ∧ plyBad s c = false ∧ (upperLanes s ∨ c.partnerLanes)) ∧
    (let s : State := inst2 wb { stk .member with reach := 6 }; let c : Cmd := cm 1 24 [(8,0,1),(9,0,3),(16,0,0x010203040506)]; Starts s 0x16 usePortPly c ∧ plyJoin c ∧ inStarter s = false ∧ plyBad s c = false ∧ upperLanes s = false ∧ c.partnerLanes = false ∧ reachable s (ownInst s + 1) = false) ∧
    (let s : State := inst2 wb { stk .member with reach := 0xE }; let c : Cmd := cm 1 24 [(8,0,1),(9,0,3),(16,0,0x010203040506)]; Starts s 0x16 usePortPly c ∧ plyJoin c ∧ inStarter s = false ∧ plyBad s c = false ∧ upperLanes s = false ∧ c.partnerLanes = false ∧ reachable s (ownInst s + 1)) ∧
    (let s : State := { (w) with pw := { w.pw with starter := true } }; let c : Cmd := cm 1 24 [(9,0,3)]; let k := withoutJoin c; Starts s 0x16 usePortPly k ∧ inStarter s) ∧
    (let s : State := w; let c : Cmd := cm 1 24 [(9,0,3)]; let k := withoutJoin c; Starts s 0x16 usePortPly k ∧ inStarter s = false ∧ plyBad s k = true) ∧
    (let s : State := inst2 wb { stk .member with reach := 6 }; let c : Cmd := cm 1 24 [(9,0,3)]; let k := withoutJoin c; Starts s 0x16 usePortPly k ∧ inStarter s = false ∧ plyBad s k = false ∧ reachable s (ownInst s + 1) = false) ∧
    (let s : State := wk .member; let c : Cmd := cm 1 24 [(9,0,3)]; let k := withoutJoin c; Starts s 0x16 usePortPly k ∧ inStarter s = false ∧ plyBad s k = false ∧ reachable s (ownInst s + 1) ∧ isPlied s = false) ∧
    (let s : State := inst2 { w with port := { defs := [(24, some { p8 with plied := true })], enabled := 0x1000000 } } (stk .member); let c : Cmd := cm 1 24 [(9,0,3)]; let k := withoutJoin c; Starts s 0x16 usePortPly k ∧ inStarter s = false ∧ plyBad s k = false ∧ reachable s (ownInst s + 1) ∧ isPlied s ∧ portNamed s 24 = true) ∧
    (let s : State := inst2 { w with port := { defs := [(24, some { p8 with plied := true })] } } (stk .member); let c : Cmd := cm 1 24 [(9,0,3)]; let k := withoutJoin c; Starts s 0x16 usePortPly k ∧ inStarter s = false ∧ plyBad s k = false ∧ reachable s (ownInst s + 1) ∧ isPlied s ∧ portNamed s 24 = false) ∧
    (let s : State := withEntry (wk .member) (ent 0x16 (cm 1 24 [(8,0,1),(9,0,3),(16,0,0x010203040506)]) .ready 1); let j : JEntry := ent 0x16 (cm 1 24 [(8,0,1),(9,0,3),(16,0,0x010203040506)]) .ready 1; let acked := 0; Takes s acked j ∧ j.cmd.ring = j.ring ∧ j.opcode = 0x16 ∧ j.stage = 1 ∧ j.cond = .ready) ∧
    (let s : State := withEntry (wk .merging) (ent 0xA1 (cm 0 0 [(8,0,1)]) (.stackReply 0) 1); let j : JEntry := ent 0xA1 (cm 0 0 [(8,0,1)]) (.stackReply 0) 1; let acked := 0; Takes s acked j ∧ j.cmd.ring = j.ring ∧ j.opcode = 0xA1 ∧ j.cond = .stackReply j.ring ∧ s.stk.st ≠ .joining ∧ 1 ≤ j.stage) ∧
    (let s : State := withEntry (w) (ent 0xA1 (cm 0 0 [(8,0,1)]) (.stackReply 0) 3); let j : JEntry := ent 0xA1 (cm 0 0 [(8,0,1)]) (.stackReply 0) 3; let acked := 0; Takes s acked j ∧ j.cmd.ring = j.ring ∧ j.opcode = 0xA1 ∧ j.cond = .stackReply j.ring ∧ s.stk.st ≠ .joining ∧ 1 ≤ j.stage) ∧
    (let s : State := withEntry (inst2 wb { stk .joining with joinGen := 5, joinHeard := true }) (ent 0xA1 (cm 0 0 [(8,0,1)]) (.stackReply 0) 1); let j : JEntry := ent 0xA1 (cm 0 0 [(8,0,1)]) (.stackReply 0) 1; let acked := 0; Takes s acked j ∧ j.cmd.ring = j.ring ∧ j.opcode = 0xA1 ∧ j.cond = .stackReply j.ring ∧ s.stk.st = .joining ∧ j.stage = 1 ∧ s.stk.joinHeard = true) ∧
    (let s : State := withEntry (inst2 wb { stk .joining with joinGen := 5, reply := [(0, some .timeout)] }) (ent 0xA1 (cm 0 0 [(8,0,1)]) (.stackReply 0) 1); let j : JEntry := ent 0xA1 (cm 0 0 [(8,0,1)]) (.stackReply 0) 1; let acked := 0; Takes s acked j ∧ j.cmd.ring = j.ring ∧ j.opcode = 0xA1 ∧ j.cond = .stackReply j.ring ∧ s.stk.st = .joining ∧ j.stage = 1 ∧ s.stk.joinHeard = false) ∧
    (let s : State := withEntry (inst2 wb { stk .joining with joinGen := 5, joinHeard := true, joinAck := some 0 }) (ent 0xA1 (cm 0 0 [(8,0,1)]) (.stackReply 0) 2); let j : JEntry := ent 0xA1 (cm 0 0 [(8,0,1)]) (.stackReply 0) 2; let acked := 0; Takes s acked j ∧ j.cmd.ring = j.ring ∧ j.opcode = 0xA1 ∧ j.cond = .stackReply j.ring ∧ s.stk.st = .joining ∧ j.stage = 2 ∧ s.stk.joinAck = some 0) ∧
    (let s : State := withEntry (inst2 wb { stk .joining with joinGen := 5, joinHeard := true, joinAck := some 2 }) (ent 0xA1 (cm 0 0 [(8,0,1)]) (.stackReply 0) 2); let j : JEntry := ent 0xA1 (cm 0 0 [(8,0,1)]) (.stackReply 0) 2; let acked := 0; let r := 2; Takes s acked j ∧ j.cmd.ring = j.ring ∧ j.opcode = 0xA1 ∧ j.cond = .stackReply j.ring ∧ s.stk.st = .joining ∧ j.stage = 2 ∧ s.stk.joinAck = some r ∧ r ≠ 0) ∧
    (let s : State := withEntry (inst2 wb { stk .joining with joinGen := 5, joinHeard := true, reply := [(0, some .timeout)] }) (ent 0xA1 (cm 0 0 [(8,0,1)]) (.stackReply 0) 2); let j : JEntry := ent 0xA1 (cm 0 0 [(8,0,1)]) (.stackReply 0) 2; let acked := 0; Takes s acked j ∧ j.cmd.ring = j.ring ∧ j.opcode = 0xA1 ∧ j.cond = .stackReply j.ring ∧ s.stk.st = .joining ∧ j.stage = 2 ∧ s.stk.joinAck = none ∧ tget none s.stk.reply j.ring = some .timeout) ∧
    (let s : State := withEntry (inst2 wb { stk .joining with joinGen := 5, joinHeard := true, joinAck := some 0, joinStepped := true }) (ent 0xA1 (cm 0 0 [(8,0,1)]) (.stackReply 0) 3); let j : JEntry := ent 0xA1 (cm 0 0 [(8,0,1)]) (.stackReply 0) 3; let acked := 0; Takes s acked j ∧ j.cmd.ring = j.ring ∧ j.opcode = 0xA1 ∧ j.cond = .stackReply j.ring ∧ s.stk.st = .joining ∧ j.stage = 3) := ⟨by simp only [starts_iff]; decide +kernel, by simp only [starts_iff]; decide +kernel, by simp only [starts_iff]; decide +kernel, by simp only [starts_iff]; decide +kernel, by simp only [starts_iff]; decide +kernel, by simp only [starts_iff]; decide +kernel, by simp only [starts_iff]; decide +kernel, by simp only [starts_iff]; decide +kernel, by simp only [starts_iff]; decide +kernel, by simp only [starts_iff]; decide +kernel, by simp only [starts_iff]; decide +kernel, by simp only [starts_iff]; decide +kernel, by simp only [starts_iff]; decide +kernel, by simp only [starts_iff]; decide +kernel, by simp only [starts_iff]; decide +kernel, by simp only [starts_iff]; decide +kernel, by simp only [starts_iff]; decide +kernel, by simp only [starts_iff]; decide +kernel, by simp only [starts_iff]; decide +kernel, by simp only [starts_iff]; decide +kernel, by simp only [starts_iff]; decide +kernel, by simp only [starts_iff]; decide +kernel, by simp only [starts_iff]; decide +kernel, by simp only [starts_iff]; decide +kernel, by simp only [starts_iff]; decide +kernel, by simp only [starts_iff]; decide +kernel, by simp only [starts_iff]; decide +kernel, by simp only [starts_iff]; decide +kernel, by simp only [starts_iff]; decide +kernel, by simp only [starts_iff]; decide +kernel, by simp only [starts_iff]; decide +kernel, by simp only [starts_iff]; decide +kernel, by simp only [starts_iff]; decide +kernel, by simp only [takes_iff]; decide +kernel, by simp only [takes_iff]; decide +kernel, by simp only [takes_iff]; decide +kernel, by simp only [takes_iff]; decide +kernel, by simp only [takes_iff]; decide +kernel, by simp only [takes_iff]; decide +kernel, by simp only [takes_iff]; decide +kernel, by simp only [takes_iff]; decide +kernel, by simp only [takes_iff]; decide +kernel⟩
theorem wit_StackTimers :
    (let s : State := wk .member; s.ic.wakeHit = none ∧ inStack s ∧ s.stk.hbAt + 1000 ≤ s.tm.now) ∧
    (let s : State := wk .member; let i := 3; s.ic.wakeHit = none ∧ inStack s ∧ freshOf s i + 8000 ≤ s.tm.now ∧ i ≠ ownInst s ∧ s.stk.reach.toNat.testBit i) ∧
    (let s : State := wk .member; let i := 1; s.ic.wakeHit = none ∧ inStack s ∧ freshOf s i + 8000 ≤ s.tm.now ∧ i ≠ ownInst s ∧ s.stk.reach.toNat.testBit i) ∧
    (let s : State := inst2 { wb with ct := { tab := [(9, { st := .admitted, img := { img with stackMask := 8 } })] } } (stk .member); let i := 3; s.ic.wakeHit = none ∧ inStack s ∧ freshOf s i + 8000 ≤ s.tm.now ∧ i ≠ ownInst s ∧ s.stk.reach.toNat.testBit i) ∧
    (let s : State := inst2 wb { stk .member with link := [(3, { heard := some 1999999992000 })] }; let l := .die 3; let t0 := 1999999992000; s.ic.wakeHit = none ∧ inStack s ∧ (linkOf s l).heard = some t0 ∧ (linkOf s l).lossRaised = false ∧ t0 + 8000 ≤ s.tm.now) ∧
    (let s : State := inst2 wb { stk .distaff with distaff := 2, timeAt := 1999999984000 }; s.ic.wakeHit = none ∧ inStack s ∧ sendsTime s ∧ s.stk.timeAt + 16000 ≤ s.tm.now) ∧
    (let s : State := inst2 wb { stk .member with upstream := some (.die 1) }; s.ic.wakeHit = none ∧ inStack s ∧ sendsTime s ∧ s.stk.timeAt + 16000 ≤ s.tm.now) ∧
    (let s : State := inst2 wb { stk .member with upstream := some (.die 1), link := [(1, { timeAt := some 1999999936000, hops := 0 })] }; let l := .die 1; s.ic.wakeHit = none ∧ s.stk.upstream = some l ∧ inStack s ∧ carriesTime s l = false) ∧
    (let s : State := inst2 wb { stk .member with upstream := some (.die 1), link := [(1, { timeAt := some 1999999936000, hops := 0 }), (3, { timeAt := some 1999999936001, hops := 1 })] }; let l := .die 1; s.ic.wakeHit = none ∧ s.stk.upstream = some l ∧ inStack s ∧ carriesTime s l = false) ∧
    (let s : State := inst2 wb { stk .member with delayAt := 1999999000000 }; s.ic.wakeHit = none ∧ inStack s ∧ s.stk.delayAt + 1000000 ≤ s.tm.now) ∧
    (let s : State := inst2 wb { stk .member with delayAt := 1999999000000, portMask := 0x1000 }; s.ic.wakeHit = none ∧ inStack s ∧ s.stk.delayAt + 1000000 ≤ s.tm.now) ∧
    (let s : State := inst2 wb { stk .merging with mergeAt := 1999984000000, offsets := [7, 8] }; s.ic.wakeHit = none ∧ inStack s ∧ s.stk.st = .merging ∧ s.stk.mergeAt + 16000000 ≤ s.tm.now ∧ stepPending s = false ∧ s.stk.offsets ≠ []) ∧
    (let s : State := inst2 wb { stk .merging with mergeAt := 1999984000000 }; s.ic.wakeHit = none ∧ inStack s ∧ s.stk.st = .merging ∧ s.stk.mergeAt + 16000000 ≤ s.tm.now ∧ stepPending s = false ∧ s.stk.offsets = []) ∧
    (let s : State := { w with ct := { tab := [(9, { st := .admitted, suspended := true, reachAt := some 1999983000000 })] } }; let n := 9; let t0 := 1999983000000; s.ic.wakeHit = none ∧ isOn s dSL ∧ (contr s n).suspended ∧ (contr s n).reachAt = some t0 ∧ t0 + 17000000 ≤ s.tm.now) ∧
    (let s : State := portOn w 24 { p8 with plied := true } lineUp; s.ic.wakeHit = none ∧ isPlied s ∧ (line s 24).up) ∧
    (let s : State := portOn w 24 { p8 with plied := true } {}; s.ic.wakeHit = none ∧ (isPlied s = false ∨ (line s 24).up = false)) ∧
    (let s : State := w; s.ic.wakeHit = none ∧ (isPlied s = false ∨ (line s 24).up = false)) ∧
    (let s : State := inst2 wb { stk .distaff with pending := [{ requester := 3, contract := 9, mask := 8, tag := 7, at_ := 1999990000000 }] }; let tag := 7; let r := 3; s.ic.wakeHit = none ∧ inStack s ∧ s.stk.pending.any (fun e => e.requester == r && e.tag == tag && decide (e.at_ + 10000000 ≤ s.tm.now))) ∧
    (let s : State := inst2 wb { stk .member with reply := [(5, some (.waiting 1999999000000 7))] }; let r := 5; let t0 := 1999999000000; let tag := 7; s.ic.wakeHit = none ∧ tget none s.stk.reply r = some (.waiting t0 tag) ∧ t0 + 1000000 ≤ s.tm.now) ∧
    (let s : State := inst2 wb { stk .member with reply := [(5, some (.waiting 1999999000001 7))] }; let r := 5; let t0 := 1999999000001; let tag := 7; s.ic.wakeHit = none ∧ tget none s.stk.reply r = some (.waiting t0 tag) ∧ s.tm.now < t0 + 1000000) ∧
    (let s : State := w; let i := 3; let l := (.die 3 : StackLink); let tag := 7; let r := 3; let x := (.heartbeatTick : Instr); x ∈ [Instr.heartbeatTick, .reachStale i, .linkHeartbeatLoss l, .timeFrameTick, .upstreamTimeout, .delayReqTick, .mergeWindowEnd, .admitPendingTimeout tag r] ∧ s.ic.wakeHit = none ∧ inStack s = false) ∧
    (let s : State := w; let i := 3; let l := (.die 3 : StackLink); let tag := 7; let r := 3; let x := .admitPendingTimeout tag r; x ∈ [Instr.heartbeatTick, .reachStale i, .linkHeartbeatLoss l, .timeFrameTick, .upstreamTimeout, .delayReqTick, .mergeWindowEnd, .admitPendingTimeout tag r] ∧ s.ic.wakeHit = none ∧ inStack s = false) ∧
    (let s : State := inst2 wb { stk .member with hbAt := 2000000000000, timeAt := 2000000000000, delayAt := 2000000000000, fresh := [(3, 2000000000000)] }; let i := 3; let x := (.reachStale i : Instr); x ∈ [Instr.heartbeatTick, .timeFrameTick, .delayReqTick, .reachStale i] ∧ s.ic.wakeHit = none ∧ s.tm.now < s.stk.hbAt + 1000 ∧ s.tm.now < s.stk.timeAt + 16000 ∧ s.tm.now < s.stk.delayAt + 1000000 ∧ s.tm.now < freshOf s i + 8000) := by refine ⟨?_, ?_, ?_, ?_, ?_, ?_, ?_, ?_, ?_, ?_, ?_, ?_, ?_, ?_, ?_, ?_, ?_, ?_, ?_, ?_, ?_, ?_, ?_⟩ <;> decide +kernel
theorem wit_StackFrames :
    (let s : State := wk .member; let l : StackLink := .die 3; let h : StackHead := { sender := 3, state := 2, distaff := 1, hops := 2, gen := 4 }; s.ic.wakeHit = none ∧ inStack s ∧ linkOk s l ∧ sameStack s h = false ∧ s.stk.st ≠ .joining ∧ wins s h = false) ∧
    (let s : State := inst2 wb { stk .member with portMask := 0x1000 }; let l : StackLink := .port 12; let h : StackHead := { sender := 9, state := 2, distaff := 1, hops := 2, gen := 4 }; s.ic.wakeHit = none ∧ inStack s ∧ linkOk s l ∧ sameStack s h = false ∧ s.stk.st ≠ .joining ∧ wins s h = false) ∧
    (let s : State := wk .member; let l : StackLink := .die 3; let h : StackHead := { sender := 3, state := 2, distaff := 1, hops := 2, gen := 6 }; s.ic.wakeHit = none ∧ inStack s ∧ linkOk s l ∧ sameStack s h = false ∧ s.stk.st ≠ .joining ∧ wins s h) ∧
    (let s : State := wk .distaff; let l : StackLink := .die 3; let h : StackHead := { sender := 3, state := 2, distaff := 0, hops := 2, gen := 5 }; s.ic.wakeHit = none ∧ inStack s ∧ linkOk s l ∧ sameStack s h = false ∧ s.stk.st ≠ .joining ∧ wins s h) ∧
    (let s : State := inst2 { wb with ct := { tab := [(9, { st := .admitted, img := { img with stackMask := 8 } })] } } (stk .member); let l : StackLink := .die 3; let h : StackHead := { sender := 3, state := 2, distaff := 1, hops := 2, gen := 6 }; s.ic.wakeHit = none ∧ inStack s ∧ linkOk s l ∧ sameStack s h = false ∧ s.stk.st ≠ .joining ∧ wins s h) ∧
    (let s : State := wk .member; let l : StackLink := .die 3; let h : StackHead := { sender := 3, state := 2, distaff := 1, hops := 2, gen := 5 }; s.ic.wakeHit = none ∧ inStack s ∧ linkOk s l ∧ sameStack s h) ∧
    (let s : State := inst2 wb { stk .orphan with v := [(1, 3)] }; let l : StackLink := .die 1; let h : StackHead := { sender := 1, state := 2, distaff := 1, hops := 0, gen := 5 }; s.ic.wakeHit = none ∧ inStack s ∧ linkOk s l ∧ sameStack s h) ∧
    (let s : State := wk .joining; let l : StackLink := .die 3; let h : StackHead := { sender := 3, state := 2, distaff := 1, hops := 0, gen := 9 }; s.ic.wakeHit = none ∧ inStack s ∧ linkOk s l ∧ s.stk.st = .joining ∧ h.distaff = s.stk.distaff ∧ (h.state = 2 ∨ h.state = 3)) ∧
    (let s : State := inst2 wb { stk .member with upstream := some (.die 1) }; let l : StackLink := .die 1; let h : StackHead := { sender := 1, state := 2, distaff := 1, hops := 0, gen := 5 }; let follow := sameStack s h ∧ h.hops ≠ 0xFF ∧ s.stk.upstream = some l ∧ s.stk.reserved = false; s.ic.wakeHit = none ∧ inStack s ∧ linkOk s l ∧ s.stk.st = .member ∧ follow) ∧
    (let s : State := inst2 wb { stk .member with upstream := some (.die 1), link := [(1, { delays := [5] })] }; let l : StackLink := .die 1; let h : StackHead := { sender := 1, state := 2, distaff := 1, hops := 0, gen := 5 }; let o := 5; let x := {}; let e := (linkStamp l x s).1 - meanOf (linkOf s l).delays - o; let follow := sameStack s h ∧ h.hops ≠ 0xFF ∧ s.stk.upstream = some l ∧ s.stk.reserved = false; s.ic.wakeHit = none ∧ inStack s ∧ linkOk s l ∧ s.stk.st = .member ∧ follow ∧ (linkOf s l).delays ≠ [] ∧ stepPending s = false ∧ (65536000 ≤ e ∨ e ≤ -65536000)) ∧
    (let s : State := inst2 wb { stk .member with upstream := some (.die 1), link := [(1, { delays := [5] })], n := 3 }; let l : StackLink := .die 1; let h : StackHead := { sender := 1, state := 2, distaff := 1, hops := 0, gen := 5 }; let o := (7 * 10 ^ 9 + 5) * 65536; let x := {}; let e := (linkStamp l x s).1 - meanOf (linkOf s l).delays - o; let follow := sameStack s h ∧ h.hops ≠ 0xFF ∧ s.stk.upstream = some l ∧ s.stk.reserved = false; s.ic.wakeHit = none ∧ inStack s ∧ linkOk s l ∧ s.stk.st = .member ∧ follow ∧ (linkOf s l).delays ≠ [] ∧ stepPending s = false ∧ -65536000 < e ∧ e < 65536000 ∧ s.stk.n + 1 ≠ 16) ∧
    (let s : State := inst2 wb { stk .joining with upstream := some (.die 1), link := [(1, { delays := [5] })] }; let l : StackLink := .die 1; let h : StackHead := { sender := 1, state := 2, distaff := 1, hops := 0, gen := 5 }; let follow := sameStack s h ∧ h.hops ≠ 0xFF ∧ s.stk.upstream = some l ∧ s.stk.reserved = false; s.ic.wakeHit = none ∧ inStack s ∧ linkOk s l ∧ s.stk.st = .joining ∧ s.stk.joinStepped = false ∧ follow ∧ (linkOf s l).delays ≠ [] ∧ stepPending s = false) ∧
    (let s : State := inst2 wb { stk .merging with upstream := some (.die 1), link := [(1, { delays := [5] })] }; let l : StackLink := .die 1; let h : StackHead := { sender := 1, state := 2, distaff := 1, hops := 0, gen := 5 }; let follow := sameStack s h ∧ h.hops ≠ 0xFF ∧ s.stk.upstream = some l ∧ s.stk.reserved = false; s.ic.wakeHit = none ∧ inStack s ∧ linkOk s l ∧ s.stk.st = .merging ∧ follow ∧ (linkOf s l).delays ≠ [] ∧ stepPending s = false) ∧
    (let s : State := wk .distaff; let l : StackLink := .die 1; let h : StackHead := { sender := 1, state := 2, distaff := 1, hops := 0, gen := 5 }; s.ic.wakeHit = none ∧ inStack s ∧ linkOk s l ∧ s.stk.st ≠ .joining ∧ (mayFollow s = false ∨ sameStack s h = false ∨ h.hops = 0xFF)) ∧
    (let s : State := wk .member; let l : StackLink := .die 1; let h : StackHead := { sender := 1, state := 2, distaff := 1, hops := 255, gen := 5 }; s.ic.wakeHit = none ∧ inStack s ∧ linkOk s l ∧ s.stk.st ≠ .joining ∧ (mayFollow s = false ∨ sameStack s h = false ∨ h.hops = 0xFF)) ∧
    (let s : State := wk .member; let l : StackLink := .die 3; s.ic.wakeHit = none ∧ inStack s ∧ linkOk s l) ∧
    (let s : State := inst2 wb { stk .member with portMask := 0x1000 }; let l : StackLink := .port 12; s.ic.wakeHit = none ∧ inStack s ∧ linkOk s l) ∧
    (let s : State := inst2 wb { stk .member with link := [(3, { reqSeq := 9, t1 := 5 })] }; let l : StackLink := .die 3; let seq := 9; s.ic.wakeHit = none ∧ inStack s ∧ linkOk s l ∧ seq = (linkOf s l).reqSeq) ∧
    (let s : State := wk .member; let l : StackLink := .die 3; let seq := 9; s.ic.wakeHit = none ∧ inStack s ∧ linkOk s l ∧ seq ≠ (linkOf s l).reqSeq) ∧
    (let s : State := inst2 wb { stk .distaff with distaff := 2, reach := 0xE }; let l : StackLink := .die 3; s.ic.wakeHit = none ∧ inStack s ∧ linkOk s l ∧ s.stk.st = .distaff) ∧
    (let s : State := inst2 wb { stk .distaff with distaff := 2, reach := 0xE, portMask := 0x1000 }; let l : StackLink := .port 12; s.ic.wakeHit = none ∧ inStack s ∧ linkOk s l ∧ s.stk.st = .distaff) ∧
    (let s : State := wk .member; let l : StackLink := .die 3; s.ic.wakeHit = none ∧ inStack s ∧ linkOk s l ∧ s.stk.st ≠ .distaff) ∧
    (let s : State := inst2 wb { stk .member with upstream := some (.die 1), relayed := [(5, 3, 0, 1999999000001)] }; let l : StackLink := .die 3; s.ic.wakeHit = none ∧ inStack s ∧ linkOk s l ∧ s.stk.st ≠ .distaff) ∧
    (let s : State := wk .joining; let l : StackLink := .die 1; let i := 2; s.ic.wakeHit = none ∧ inStack s ∧ linkOk s l ∧ i = ownInst s ∧ s.stk.st = .joining ∧ s.stk.joinAck = none) ∧
    (let s : State := wk .joining; let l : StackLink := .die 1; let i := 2; s.ic.wakeHit = none ∧ inStack s ∧ linkOk s l ∧ i = ownInst s ∧ s.stk.st = .joining ∧ s.stk.joinAck = none) ∧
    (let s : State := wk .member; let l : StackLink := .die 1; let i := 2; s.ic.wakeHit = none ∧ inStack s ∧ linkOk s l ∧ i = ownInst s ∧ (s.stk.st ≠ .joining ∨ s.stk.joinAck ≠ none)) ∧
    (let s : State := wk .member; let l : StackLink := .die 1; let i := 3; s.ic.wakeHit = none ∧ inStack s ∧ linkOk s l ∧ i ≠ ownInst s) ∧
    (let s : State := inst2 wb { stk .distaff with distaff := 2, reach := 0xE }; let l : StackLink := .die 3; s.ic.wakeHit = none ∧ inStack s ∧ linkOk s l ∧ s.stk.st = .distaff) ∧
    (let s : State := inst2 wb { stk .distaff with distaff := 2, reach := 4 }; let l : StackLink := .die 3; s.ic.wakeHit = none ∧ inStack s ∧ linkOk s l ∧ s.stk.st = .distaff) ∧
    (let s : State := inst2 wb { stk .member with upstream := some (.die 1) }; let l : StackLink := .die 3; s.ic.wakeHit = none ∧ inStack s ∧ linkOk s l ∧ s.stk.st ≠ .distaff) ∧
    (let s : State := inst2 wb { stk .member with reply := [(5, some (.waiting 1999999000000 7))] }; let l : StackLink := .die 1; let m := ({ requester := 2, contract := 9, mask := 8, tag := 7, result := 2 } : AdmitMsg); let r := 5; s.ic.wakeHit = none ∧ inStack s ∧ linkOk s l ∧ m.requester = ownInst s ∧ waiter s m.tag = some r) ∧
    (let s : State := wk .member; let l : StackLink := .die 1; let m := ({ requester := 2, contract := 9, mask := 8, tag := 7, result := 2 } : AdmitMsg); s.ic.wakeHit = none ∧ inStack s ∧ linkOk s l ∧ m.requester = ownInst s ∧ waiter s m.tag = none) ∧
    (let s : State := wk .member; let l : StackLink := .die 1; let m := ({ requester := 3, contract := 9, mask := 8, tag := 7, result := 2 } : AdmitMsg); s.ic.wakeHit = none ∧ inStack s ∧ linkOk s l ∧ m.requester ≠ ownInst s) ∧
    (let s : State := inst2 wb { stk .distaff with distaff := 2, pending := [{ requester := 3, contract := 9, mask := 8, tag := 7, at_ := 1999990000000 }] }; let l : StackLink := .die 3; s.ic.wakeHit = none ∧ inStack s ∧ linkOk s l ∧ s.stk.st = .distaff) ∧
    (let s : State := inst2 wb { stk .member with upstream := some (.die 1) }; let l : StackLink := .die 3; s.ic.wakeHit = none ∧ inStack s ∧ linkOk s l ∧ s.stk.st ≠ .distaff) ∧
    (let s : State := wk .member; let l : StackLink := .die 3; s.ic.wakeHit = none ∧ inStack s ∧ linkOk s l) ∧
    (let s : State := wk .member; let l : StackLink := .die 3; s.ic.wakeHit = none ∧ inStack s ∧ linkOk s l) ∧
    (let s : State := w; let l : StackLink := .die 3; let h : StackHead := { sender := 3, state := 2, distaff := 1, hops := 2, gen := 5 }; let v := 0; let o := 5; let x := ({} : LaneStamp); let q := (.locked : Quality); let seq := 0; let t2 := 0; let t3 := 0; let i := 0; let r := 0; let a := (0 : BitVec 32); let m := ({ requester := 3, contract := 9, mask := 8, tag := 7, result := 2 } : AdmitMsg); let k := (.leave l h : Instr); k ∈ [Instr.heartbeat l h v, .time l h o x q, .delayReq l h seq x, .delayResp l h seq t2 t3 x, .joinReq l h, .joinAck l h i r a, .admitReq l h m, .admitResp l h m, .release l h m, .leave l h] ∧ s.ic.wakeHit = none ∧ (inStack s = false ∨ linkOk s l = false)) := by refine ⟨?_, ?_, ?_, ?_, ?_, ?_, ?_, ?_, ?_, ?_, ?_, ?_, ?_, ?_, ?_, ?_, ?_, ?_, ?_, ?_, ?_, ?_, ?_, ?_, ?_, ?_, ?_, ?_, ?_, ?_, ?_, ?_, ?_, ?_, ?_, ?_, ?_, ?_⟩ <;> decide +kernel
theorem wit_BobbinDoorbell :
    (let s : State := setDom wb dHD {}; let b : Nat := 100; s.ic.wakeHit = none ∧ idxOpen s b = false) ∧
    (let s : State := wb; let b : Nat := 100; let x := 0x7F; s.ic.wakeHit = none ∧ idxOpen s b = true ∧ x ≠ 0xFF) ∧
    (let s : State := wb; let b : Nat := 100; let v : BitVec 64 := 8; let B := bobn s b; let z := 2 ^ B.sizeLog2; let w := v.toNat % 2 ^ 17; let adv := (w + 2 * z - B.hostIdx) % (2 * z); let ok := w < 2 * z ∧ (B.kind ≠ .completion → adv ≤ z - (B.hostIdx + 2 * z - B.blockIdx) % (2 * z)) ∧ (B.kind = .completion → adv ≤ (B.blockIdx + 2 * z - B.hostIdx) % (2 * z)); s.ic.wakeHit = none ∧ idxOpen s b = true ∧ B.st = .opened ∧ w ≠ B.hostIdx ∧ ok) ∧
    (let s : State := withBob wb 200 { bobn wb 200 with blockIdx := 2, hostIdx := 15 }; let b : Nat := 200; let v : BitVec 64 := 2; let B := bobn s b; let z := 2 ^ B.sizeLog2; let w := v.toNat % 2 ^ 17; let adv := (w + 2 * z - B.hostIdx) % (2 * z); let ok := w < 2 * z ∧ (B.kind ≠ .completion → adv ≤ z - (B.hostIdx + 2 * z - B.blockIdx) % (2 * z)) ∧ (B.kind = .completion → adv ≤ (B.blockIdx + 2 * z - B.hostIdx) % (2 * z)); s.ic.wakeHit = none ∧ idxOpen s b = true ∧ B.st = .opened ∧ w ≠ B.hostIdx ∧ ok) ∧
    (let s : State := withBob wb 100 { bobn wb 100 with blockIdx := 14, hostIdx := 15, next := 15 }; let b : Nat := 100; let v : BitVec 64 := 6; let B := bobn s b; let z := 2 ^ B.sizeLog2; let w := v.toNat % 2 ^ 17; let adv := (w + 2 * z - B.hostIdx) % (2 * z); let ok := w < 2 * z ∧ (B.kind ≠ .completion → adv ≤ z - (B.hostIdx + 2 * z - B.blockIdx) % (2 * z)) ∧ (B.kind = .completion → adv ≤ (B.blockIdx + 2 * z - B.hostIdx) % (2 * z)); s.ic.wakeHit = none ∧ idxOpen s b = true ∧ B.st = .opened ∧ w ≠ B.hostIdx ∧ ok) ∧
    (let s : State := wb; let b : Nat := 100; let v : BitVec 64 := 9; let B := bobn s b; let z := 2 ^ B.sizeLog2; let w := v.toNat % 2 ^ 17; let adv := (w + 2 * z - B.hostIdx) % (2 * z); let ok := w < 2 * z ∧ (B.kind ≠ .completion → adv ≤ z - (B.hostIdx + 2 * z - B.blockIdx) % (2 * z)) ∧ (B.kind = .completion → adv ≤ (B.blockIdx + 2 * z - B.hostIdx) % (2 * z)); s.ic.wakeHit = none ∧ idxOpen s b = true ∧ B.st = .opened ∧ w ≠ B.hostIdx ∧ ¬ ok) ∧
    (let s : State := wb; let b : Nat := 100; let v : BitVec 64 := 16; let B := bobn s b; let z := 2 ^ B.sizeLog2; let w := v.toNat % 2 ^ 17; let adv := (w + 2 * z - B.hostIdx) % (2 * z); let ok := w < 2 * z ∧ (B.kind ≠ .completion → adv ≤ z - (B.hostIdx + 2 * z - B.blockIdx) % (2 * z)) ∧ (B.kind = .completion → adv ≤ (B.blockIdx + 2 * z - B.hostIdx) % (2 * z)); s.ic.wakeHit = none ∧ idxOpen s b = true ∧ B.st = .opened ∧ w ≠ B.hostIdx ∧ ¬ ok) ∧
    (let s : State := withBob wb 200 { bobn wb 200 with blockIdx := 2, hostIdx := 15 }; let b : Nat := 200; let v : BitVec 64 := 3; let B := bobn s b; let z := 2 ^ B.sizeLog2; let w := v.toNat % 2 ^ 17; let adv := (w + 2 * z - B.hostIdx) % (2 * z); let ok := w < 2 * z ∧ (B.kind ≠ .completion → adv ≤ z - (B.hostIdx + 2 * z - B.blockIdx) % (2 * z)) ∧ (B.kind = .completion → adv ≤ (B.blockIdx + 2 * z - B.hostIdx) % (2 * z)); s.ic.wakeHit = none ∧ idxOpen s b = true ∧ B.st = .opened ∧ w ≠ B.hostIdx ∧ ¬ ok) ∧
    (let s : State := wb; let b : Nat := 100; let v : BitVec 64 := 0; let B := bobn s b; let w := v.toNat % 2 ^ 17; s.ic.wakeHit = none ∧ idxOpen s b = true ∧ (B.st ≠ .opened ∨ w = B.hostIdx)) ∧
    (let s : State := wb; let b : Nat := 262143; let v : BitVec 64 := 5; let B := bobn s b; let w := v.toNat % 2 ^ 17; s.ic.wakeHit = none ∧ idxOpen s b = true ∧ (B.st ≠ .opened ∨ w = B.hostIdx)) := by refine ⟨?_, ?_, ?_, ?_, ?_, ?_, ?_, ?_, ?_, ?_⟩ <;> decide +kernel
theorem wit_BobbinPush :
    (let s : State := setDom wb dHD {}; let b : Nat := 100; s.ic.wakeHit = none ∧ idxOpen s b = false) ∧
    (let s : State := withBob wb 100 { bobn wb 100 with st := .draining }; let b : Nat := 100; let B := bobn s b; s.ic.wakeHit = none ∧ idxOpen s b = true ∧ (B.st = .draining ∨ B.st = .stale)) ∧
    (let s : State := withBob wb 100 { bobn wb 100 with blockIdx := 0, hostIdx := 1, next := 0 }; let b : Nat := 100; let o : Octets := le 4 2 ++ [1] ++ List.replicate 27 0 ++ List.replicate 96 0; let burst : Bool := true; let B := bobn s b; s.ic.wakeHit = none ∧ idxOpen s b = true ∧ pushOk B o burst = true ∧ tget [] B.pushed B.next = [] ∧ (∀ i, i < oct o 4 → (B.hostIdx + i) % (2 * bsize B) ≠ B.next)) ∧
    (let s : State := withBob wb 100 { bobn wb 100 with blockIdx := 12, hostIdx := 15, next := 12 }; let b : Nat := 100; let o : Octets := le 4 2 ++ [3] ++ List.replicate 27 0 ++ List.replicate 96 7; let burst : Bool := true; let B := bobn s b; s.ic.wakeHit = none ∧ idxOpen s b = true ∧ pushOk B o burst = true ∧ tget [] B.pushed B.next = [] ∧ (∀ i, i < oct o 4 → (B.hostIdx + i) % (2 * bsize B) ≠ B.next)) ∧
    (let s : State := wb; let b : Nat := 100; let o : Octets := le 4 2 ++ [1] ++ List.replicate 27 0 ++ List.replicate 96 0; let burst : Bool := true; let B := bobn s b; s.ic.wakeHit = none ∧ idxOpen s b = true ∧ B.st ≠ .draining ∧ B.st ≠ .stale ∧ pushOk B o burst = false) ∧
    (let s : State := wb; let b : Nat := 5; let o : Octets := le 4 1 ++ [1] ++ List.replicate 27 0 ++ List.replicate 96 0; let burst : Bool := true; let B := bobn s b; s.ic.wakeHit = none ∧ idxOpen s b = true ∧ B.st ≠ .draining ∧ B.st ≠ .stale ∧ pushOk B o burst = false) ∧
    (let s : State := wb; let b : Nat := 100; let o : Octets := le 4 1 ++ [1] ++ List.replicate 27 0 ++ List.replicate 96 0; let burst : Bool := false; let B := bobn s b; s.ic.wakeHit = none ∧ idxOpen s b = true ∧ B.st ≠ .draining ∧ B.st ≠ .stale ∧ pushOk B o burst = false) := by refine ⟨?_, ?_, ?_, ?_, ?_, ?_, ?_⟩ <;> decide +kernel
theorem wit_RingEnableAndDisable :
    (let s : State := ring0 w { posted 0 with enable := false, state := .disabled, idxErr := true }; let r : Nat := 0; let v : BitVec 64 := 0x31; let sec : Bool := true; let old := ring s r; let R := storeSize (storePriv old (v.extractLsb' 2 2) sec) (v.extractLsb' 4 4); s.ic.wakeHit = none ∧ sqOpen s = true ∧ old.enable = false ∧ old.stopping = false ∧ alignedRing R = true) ∧
    (let s : State := { ring0 w { posted 0 with enable := false, state := .disabled } with sq := { w.sq with iir := [(0, { valid := true, opcode := 0x53, tag := 7, progress := 9 })] } }; let r : Nat := 0; let v : BitVec 64 := 0xC1; let sec : Bool := false; let old := ring s r; let R := storeSize (storePriv old (v.extractLsb' 2 2) sec) (v.extractLsb' 4 4); s.ic.wakeHit = none ∧ sqOpen s = true ∧ old.enable = false ∧ old.stopping = false ∧ alignedRing R = true) ∧
    (let s : State := w; let r : Nat := 0; let v : BitVec 64 := 0x31; let sec : Bool := true; let old := ring s r; let R := storeSize (storePriv old (v.extractLsb' 2 2) sec) (v.extractLsb' 4 4); s.ic.wakeHit = none ∧ sqOpen s = true ∧ (old.enable = true ∨ old.stopping = true ∨ alignedRing R = false)) ∧
    (let s : State := ring0 w { posted 0 with enable := false, stopping := true }; let r : Nat := 0; let v : BitVec 64 := 0x31; let sec : Bool := true; let old := ring s r; let R := storeSize (storePriv old (v.extractLsb' 2 2) sec) (v.extractLsb' 4 4); s.ic.wakeHit = none ∧ sqOpen s = true ∧ (old.enable = true ∨ old.stopping = true ∨ alignedRing R = false)) ∧
    (let s : State := ring0 w { posted 0 with enable := false, state := .disabled, base := 1 }; let r : Nat := 0; let v : BitVec 64 := 0x31; let sec : Bool := true; let old := ring s r; let R := storeSize (storePriv old (v.extractLsb' 2 2) sec) (v.extractLsb' 4 4); s.ic.wakeHit = none ∧ sqOpen s = true ∧ (old.enable = true ∨ old.stopping = true ∨ alignedRing R = false)) ∧
    (let s : State := w; let r : Nat := 3; let old := ring s r; let busy := old.state ≠ .halted ∧ old.wait = none ∧ (old.held = true ∨ old.record ≠ none ∨ 0 < old.left); s.ic.wakeHit = none ∧ sqOpen s = true ∧ old.enable = true ∧ ¬ busy) ∧
    (let s : State := ring0 w { posted 0 with state := .waiting, wait := some { cmd := cm 0 0 [], openSerial := 0, startCount := 0, startNow := 0, index := 0, linked := false } }; let r : Nat := 0; let old := ring s r; let busy := old.state ≠ .halted ∧ old.wait = none ∧ (old.held = true ∨ old.record ≠ none ∨ 0 < old.left); s.ic.wakeHit = none ∧ sqOpen s = true ∧ old.enable = true ∧ ¬ busy) ∧
    (let s : State := withEntry wb (ent 0x12 (cm 1 12 []) (.portDrained 12)); let r : Nat := 0; let old := ring s r; let busy := old.state ≠ .halted ∧ old.wait = none ∧ (old.held = true ∨ old.record ≠ none ∨ 0 < old.left); s.ic.wakeHit = none ∧ sqOpen s = true ∧ old.enable = true ∧ busy) ∧
    (let s : State := ring0 w { posted 0 with enable := false, state := .disabled }; let r : Nat := 0; let old := ring s r; s.ic.wakeHit = none ∧ sqOpen s = true ∧ old.enable = false) := by refine ⟨?_, ?_, ?_, ?_, ?_, ?_, ?_, ?_, ?_⟩ <;> decide +kernel
theorem wit_RingFieldsAndResume :
    (let s : State := ring0 w { posted 0 with enable := false }; s.ic.wakeHit = none ∧ sqOpen s = true) ∧
    (let s : State := ring0 w { posted 0 with enable := false }; s.ic.wakeHit = none ∧ sqOpen s = true) ∧
    (let s : State := ring0 w { posted 0 with enable := false }; s.ic.wakeHit = none ∧ sqOpen s = true) ∧
    (let s : State := w; s.ic.wakeHit = none ∧ sqOpen s = true) ∧
    (let s : State := ring0 w { posted 0 with enable := false }; s.ic.wakeHit = none ∧ sqOpen s = true) ∧
    (let s : State := ring0 w { posted 0 with enable := false }; s.ic.wakeHit = none ∧ sqOpen s = true) ∧
    (let s : State := ring0 w { posted 0 with enable := false }; s.ic.wakeHit = none ∧ sqOpen s = true) ∧
    (let s : State := ring0 w { posted 0 with enable := false }; s.ic.wakeHit = none ∧ sqOpen s = true) ∧
    (let s : State := w; s.ic.wakeHit = none ∧ sqOpen s = true) ∧
    (let s : State := ring0 w { posted 0 with state := .halted }; s.ic.wakeHit = none ∧ sqOpen s = true) ∧
    (let s : State := w; s.ic.wakeHit = none ∧ sqOpen s = true) := by refine ⟨?_, ?_, ?_, ?_, ?_, ?_, ?_, ?_, ?_, ?_, ?_⟩ <;> decide +kernel
theorem wit_RingDoorbells :
    (let s : State := w; let r : Nat := 7; let v : BitVec 64 := 8; let R := ring s r; let z := 2 ^ R.sizeLog2.toNat; let w := v.toNat % 2 ^ 17; let occ := (R.hostIdx.toNat + 2 * z - R.blockIdx.toNat) % (2 * z); let okCmd := w < 2 * z ∧ (w + 2 * z - R.hostIdx.toNat) % (2 * z) ≤ z - occ; s.ic.wakeHit = none ∧ sqOpen s = true ∧ R.enable = true ∧ okCmd) ∧
    (let s : State := ring0 w { posted 0 with hostIdx := 15, blockIdx := 14 }; let r : Nat := 0; let v : BitVec 64 := 6; let R := ring s r; let z := 2 ^ R.sizeLog2.toNat; let w := v.toNat % 2 ^ 17; let occ := (R.hostIdx.toNat + 2 * z - R.blockIdx.toNat) % (2 * z); let okCmd := w < 2 * z ∧ (w + 2 * z - R.hostIdx.toNat) % (2 * z) ≤ z - occ; s.ic.wakeHit = none ∧ sqOpen s = true ∧ R.enable = true ∧ okCmd) ∧
    (let s : State := w; let r : Nat := 7; let v : BitVec 64 := 9; let R := ring s r; let z := 2 ^ R.sizeLog2.toNat; let w := v.toNat % 2 ^ 17; let occ := (R.hostIdx.toNat + 2 * z - R.blockIdx.toNat) % (2 * z); let okCmd := w < 2 * z ∧ (w + 2 * z - R.hostIdx.toNat) % (2 * z) ≤ z - occ; s.ic.wakeHit = none ∧ sqOpen s = true ∧ R.enable = true ∧ ¬ okCmd) ∧
    (let s : State := w; let r : Nat := 0; let v : BitVec 64 := 16; let R := ring s r; let z := 2 ^ R.sizeLog2.toNat; let w := v.toNat % 2 ^ 17; let occ := (R.hostIdx.toNat + 2 * z - R.blockIdx.toNat) % (2 * z); let okCmd := w < 2 * z ∧ (w + 2 * z - R.hostIdx.toNat) % (2 * z) ≤ z - occ; s.ic.wakeHit = none ∧ sqOpen s = true ∧ R.enable = true ∧ ¬ okCmd) ∧
    (let s : State := ring0 w { posted 0 with cplBlockIdx := 15, cplHostIdx := 12 }; let r : Nat := 0; let v : BitVec 64 := 15; let R := ring s r; let z := 2 ^ R.sizeLog2.toNat; let w := v.toNat % 2 ^ 17; let rec_ := (R.cplBlockIdx.toNat + 2 * z - R.cplHostIdx.toNat) % (2 * z); let okCpl := w < 2 * z ∧ (w + 2 * z - R.cplHostIdx.toNat) % (2 * z) ≤ rec_; s.ic.wakeHit = none ∧ sqOpen s = true ∧ R.enable = true ∧ okCpl) ∧
    (let s : State := ring0 w { posted 0 with cplBlockIdx := 15, cplHostIdx := 12 }; let r : Nat := 0; let v : BitVec 64 := 0; let R := ring s r; let z := 2 ^ R.sizeLog2.toNat; let w := v.toNat % 2 ^ 17; let rec_ := (R.cplBlockIdx.toNat + 2 * z - R.cplHostIdx.toNat) % (2 * z); let okCpl := w < 2 * z ∧ (w + 2 * z - R.cplHostIdx.toNat) % (2 * z) ≤ rec_; s.ic.wakeHit = none ∧ sqOpen s = true ∧ R.enable = true ∧ ¬ okCpl) ∧
    (let s : State := ring0 w { posted 0 with enable := false }; let r : Nat := 0; let R := ring s r; s.ic.wakeHit = none ∧ sqOpen s = true ∧ R.enable = false) ∧
    (let s : State := ring0 w { posted 0 with enable := false }; let r : Nat := 0; let R := ring s r; s.ic.wakeHit = none ∧ sqOpen s = true ∧ R.enable = false) ∧
    (let s : State := w; let x := 0x0F; s.ic.wakeHit = none ∧ sqOpen s = true ∧ x ≠ 0xFF) ∧
    (let s : State := w; let x := 0; s.ic.wakeHit = none ∧ sqOpen s = true ∧ x ≠ 0xFF) := by refine ⟨?_, ?_, ?_, ?_, ?_, ?_, ?_, ?_, ?_, ?_⟩ <;> decide +kernel
theorem wit_RingPushAndRegisterWrite :
    (let s : State := w; let r := 7; let o := le 4 2 ++ [1] ++ List.replicate 27 0 ++ List.replicate 96 0; s.ic.wakeHit = none ∧ sqOpen s = true ∧ crPushOk (ring s r) o true = true) ∧
    (let s : State := ring0 w { posted 0 with hostIdx := 14, blockIdx := 12 }; let r := 0; let o := le 4 1 ++ [3] ++ List.replicate 27 0 ++ List.replicate 96 5; s.ic.wakeHit = none ∧ sqOpen s = true ∧ crPushOk (ring s r) o true = true) ∧
    (let s : State := w; let r := 7; let o := le 4 3 ++ [1] ++ List.replicate 27 0 ++ List.replicate 96 0; let b := true; s.ic.wakeHit = none ∧ sqOpen s = true ∧ crPushOk (ring s r) o b = false) ∧
    (let s : State := w; let r := 7; let o := le 4 2 ++ [1] ++ List.replicate 27 0 ++ List.replicate 96 0; let b := false; s.ic.wakeHit = none ∧ sqOpen s = true ∧ crPushOk (ring s r) o b = false) ∧
    (let s : State := setDom w dSQ {}; let r := 7; let v := 0; let x := 0xFF; let o := ([] : Octets); let b := true; let p := 0; let z := 3; let sec := true; let i := (.resume r : Instr); i ∈ [Instr.crEnable r v sec, .crDisable r v sec, .crPrivWrite r p sec, .crSizeWrite r z, .crDoorbell r v x, .crCplIdxWrite r v x, .crPush r o b, .resume r] ∧ s.ic.wakeHit = none ∧ sqOpen s = false) ∧
    (let s : State := w; let g := 63; s.ic.wakeHit = none ∧ g < 64 ∧ portOpen s = true) ∧
    (let s : State := { w with ic := { group := [(63, { pend := 0xFFFFFFFF, en := 1 })] } }; let g := 63; s.ic.wakeHit = none ∧ g < 64 ∧ portOpen s = true) ∧
    (let s : State := { w with ck := { done := 0xFF } }; s.ic.wakeHit = none ∧ portOpen s = true) ∧
    (let s : State := w; let a : BitVec 26 := 0x18; s.ic.wakeHit = none ∧ portOpen s = true ∧ a.toNat % 8 = 0 ∧ siteOf a.toNat = .reserved) ∧
    (let s : State := w; let a : BitVec 26 := 0x1FFFFF8; s.ic.wakeHit = none ∧ portOpen s = true ∧ a.toNat % 8 = 0 ∧ siteOf a.toNat = .reserved) ∧
    (let s : State := w; let a : BitVec 26 := 0x600000; s.ic.wakeHit = none ∧ portOpen s = true ∧ a.toNat % 8 = 0 ∧ siteOf a.toNat = .reserved) ∧
    (let s : State := w; let a : BitVec 26 := 0x100078; let l := ([{ data := 0 }, { data := 0 }] : List RegBeat); s.ic.wakeHit = none ∧ portOpen s = true ∧ 128 < a.toNat % 128 + 8 * l.length) ∧
    (let s : State := w; let a : BitVec 26 := 0x100008; let x := 0x0F; s.ic.wakeHit = none ∧ x ≠ 0xFF ∧ portOpen s = true ∧ a.toNat % 8 = 0 ∧ siteOf a.toNat = .aon) ∧
    (let s : State := w; let n := 2; s.ic.wakeHit = none ∧ s.pw.edge ≠ .reset ∧ n < 3) ∧
    (let s : State := State.reset; let a : BitVec 26 := 0x8; s.ic.wakeHit = none ∧ portOpen s = false ∧ (s.pw.edge = .reset ∨ 0x100 ≤ a.toNat)) := by refine ⟨?_, ?_, ?_, ?_, ?_, ?_, ?_, ?_, ?_, ?_, ?_, ?_, ?_, ?_, ?_⟩ <;> decide +kernel
theorem ofLe_zeros (k : Nat) : ofLe (List.replicate k 0#8) = 0 := by induction k <;> simp_all [List.replicate_succ, ofLe]
theorem wit_WindowsGrantsSkeinsSpreads_long :
    (let s : State := { w with spr := { group := [(9, { base := 100, size := 600 })] } }; let c : Cmd := { cm 6 9 [(8,0,0x100000),(16,0,1),(18,0,0),(20,0,600)] with reads := [{}] }; let n := fld c 20 0 32; let k : Cmd := { c with sub := 1 }; let r : FabReply := {}; let o := (r.data ++ List.replicate (4 * n) 0).take (4 * n); Starts s 0x25 useSpreadSet k ∧ n ≠ 0 ∧ fld c 18 0 16 + n ≤ (spreadGroup s (objNum c)).size ∧ bufOk s c (fld c 8 0 64) (fld c 16 0 8) (4 * n) = true ∧ c.reads = [r] ∧ r.error = false ∧ (∀ i, i < n → bits (ofLe (part o (4 * i) 4)) 18 13 = 0) ∧ 512 < n) := by
  simp only [starts_iff]
  refine ⟨by decide +kernel, by decide +kernel, by decide +kernel, by decide +kernel, trivial, trivial, fun i _ => ?_, by decide +kernel⟩
  simp [part, List.take_replicate, List.drop_replicate, ofLe_zeros, bits]
/-- A state in which two sources can be presented to host 1. -/
def claimState : State := { w with ic := { group := [(5, { pend := 0x80000000, en := 0x80000000, prio := 3, targets := 2, gateOpen := true }), (63, { pend := 1, en := 1, prio := 3, targets := 2, gateOpen := true })] } }
theorem wit_ClaimTakesTheHighest :
    (claimState.ic.wakeHit = none ∧ aonOpen claimState = true ∧ twf {} claimState.ic.group = true ∧ presentable claimState 1 5 31 = true ∧ presentable claimState 1 63 0 = true) ∧
    (w.ic.wakeHit = none ∧ aonOpen w = true ∧ twf {} w.ic.group = true ∧ ∀ g n, n < 32 → presentable w 3 g n = false) ∧
    (w.ic.wakeHit = none ∧ twf {} w.ic.group = true ∧ aonOpen w = true ∧ (0x7F : BitVec 8) ≠ 0xFF) ∧
    (State.reset.ic.wakeHit = none ∧ twf {} State.reset.ic.group = true ∧ aonOpen State.reset = false) := by
  refine ⟨by decide +kernel, ⟨by decide +kernel, by decide +kernel, by decide +kernel, fun g n _ => ?_⟩, by decide +kernel, by decide +kernel⟩
  have h : grp w g = {} := rfl
  simp [presentable, h]
end Sys2Proof.Tests
end

section
/-! The time-stamp queues' read port (R88). The four answers of `TSQ_POP_LO` are one equation each, and a readout's frame is said once
for `setReg`, which every register read ends with. -/
namespace Sys2Proof.Machine

/-! ### Frames of the register port and of a line -/
theorem setReg_untouched (s : State) (r : Resp) (d : List (BitVec 64)) : Untouched [.regPort] s (setReg s r d) := by
  refine ⟨rfl, fun p hp => ?_⟩
  cases p with
  | regPort => exact absurd (List.mem_singleton_self _) hp
  | _ => simp [Part.same, setReg, testOf]
theorem setLine_untouched (s : State) (p : Nat) (L : Line) : Untouched [.ports] s (setLine s p L) := by
  refine ⟨rfl, fun q hq => ?_⟩
  cases q with
  | ports => exact absurd (List.mem_singleton_self _) hq
  | _ => simp [Part.same, testOf]
/-- A row that only answers a register read: its data, and nothing else changed. -/
theorem event_setReg_answers {s : State} (hw : s.ic.wakeHit = none) (r : Resp) (d : List (BitVec 64)) :
    Answers (event (setReg s r d)) s [.regPort] (fun t => t.reg = { resp := r, data := d }) :=
  answers hw (setReg_untouched s r d) (settle_reg _)

/-! ### The answers of `TSQ_POP_LO` -/
theorem exec_tsqPop (s : State) (p : Nat) (b : BitVec 8) : exec (.tsqPop p b) s = event (tsqPop p b s) := rfl
theorem tsqPop_of_off {s : State} {p : Nat} (b : BitVec 8) (h : isOn s (dMS (sliceOf p)) = false) :
    tsqPop p b s = setReg s .absent [0] := by simp [tsqPop, h]
theorem tsqPop_of_short {s : State} {p : Nat} {b : BitVec 8} (h : isOn s (dMS (sliceOf p)) = true) (hb : b ≠ 0xFF) :
    tsqPop p b s = setReg s .served [0] := by
  have hon : ¬ (!isOn s (dMS (sliceOf p))) = true := by simp [h]
  exact (if_neg hon).trans (if_pos hb)
theorem tsqPop_of_empty {s : State} {p : Nat} (h : isOn s (dMS (sliceOf p)) = true) (hq : (line s p).tsq = []) :
    tsqPop p 0xFF s = setReg s .served [0] := by simp [tsqPop, h, hq]
theorem tsqPop_of_cons {s : State} {p : Nat} {e : TsqEntry} {l : List TsqEntry} (h : isOn s (dMS (sliceOf p)) = true)
    (hq : (line s p).tsq = e :: l) :
    tsqPop p 0xFF s = setReg (setLine s p { line s p with tsq := l, tsqHi := tsqHiOf e }) .served [tsqLo e] := by
  simp [tsqPop, h, hq]

/-- A readout that also sets a line, such as a pop: its data, the line, and nothing else changed. -/
theorem event_setReg_setLine_answers {s : State} (hw : s.ic.wakeHit = none) (p : Nat) (L : Line) (r : Resp) (d : List (BitVec 64)) :
    Answers (event (setReg (setLine s p L) r d)) s [.ports, .regPort] (fun t => t.reg = { resp := r, data := d } ∧ LineIs s t p L) := by
  have hline : Untouched [.ports, .regPort] s (setLine s p L) := (setLine_untouched s p L).weaken (by simp)
  have hreg := (setReg_untouched (setLine s p L) r d).weaken (b' := [.ports, .regPort]) (by simp)
  exact answers hw (hline.trans hreg) ⟨settle_reg _, lineIs_set rfl⟩

end Sys2Proof.Machine

namespace Sys2Proof.TimeAndStamps
open Sys2Proof.Machine

/-- Settles O35: of the four answers of R88 only the pop of a queue with entries touches the port, and there its own line alone. -/
theorem tsqPop : Obligations.TsqPop := by
  intro s p hw
  refine ⟨fun e l hon hq => ?pop, fun hon hq => ?empty, fun b hon hb => ?short, fun b hoff => ?off⟩
  case pop =>
    rw [exec_tsqPop, tsqPop_of_cons hon hq]
    obtain ⟨t, hnext, ⟨hreg, hline⟩, hrest⟩ := event_setReg_setLine_answers hw p _ .served [tsqLo e]
    exact ⟨t, hnext, hreg, hline, hrest⟩
  case empty =>
    rw [exec_tsqPop, tsqPop_of_empty hon hq]
    exact event_setReg_answers hw _ _
  case short =>
    rw [exec_tsqPop, tsqPop_of_short hon hb]
    exact event_setReg_answers hw _ _
  case off =>
    rw [exec_tsqPop, tsqPop_of_off b hoff]
    exact event_setReg_answers hw _ _

end Sys2Proof.TimeAndStamps
end

section
/-! The bobbin doorbell (R192). Which write moves HOST_IDX is one equation each of `hostIdxWrite`. An accepted write may examine pushed
descriptors, which may complete entries: that none of this moves a HOST_IDX or the register answer is the relation `SameHostIdx`, said once
for each operation on the way. -/
namespace Sys2Proof.Machine

/-! ### Frames of a bobbin and of a bank's counter -/
theorem setBob_untouched (s : State) (b : Nat) (X : Bobbin) : Untouched [.bobbins] s (setBob s b X) := by
  refine ⟨rfl, fun p hp => ?_⟩
  cases p with
  | bobbins => exact absurd (List.mem_singleton_self _) hp
  | _ => simp [Part.same, testOf]
theorem cntBank_untouched (s : State) (b i n : Nat) : Untouched [.counters] s (cntBank s b i n) := by
  unfold cntBank
  split
  · exact .refl _ _
  · refine ⟨rfl, fun p hp => ?_⟩
    cases p with
    | counters => exact absurd (List.mem_singleton_self _) hp
    | _ => simp [Part.same, testOf]
theorem cntBank_bank {s : State} (h : isOn s dHD = true) (b i n : Nat) :
    tget 0 (cntBank s b i n).ctr.bank (8 * (b / 32768) + i) = tget 0 s.ctr.bank (8 * (b / 32768) + i) + BitVec.ofNat 64 n := by
  simp [cntBank, h, bump]

/-! ### What holds a class back (R45) changes ports alone -/
theorem Untouched.ite {c : Prop} [Decidable c] {but : List Part} {s t u : State} (h : Untouched but s t) (k : Untouched but s u) :
    Untouched but s (if c then t else u) := by
  split
  · exact h
  · exact k
theorem sendFlow_untouched (s : State) (p cl q : Nat) : Untouched [.ports] s (sendFlow s p cl q) := by
  unfold sendFlow
  dsimp only
  split
  · exact .refl _ _
  · exact setLine_untouched _ _ _
  · exact setLine_untouched _ _ _
theorem xoffTrack_untouched (s : State) (p cl : Nat) : Untouched [.ports] s (xoffTrack s p cl) :=
  .ite (.ite (setLine_untouched _ _ _) (.refl _ _)) ((Untouched.ite (sendFlow_untouched _ _ _ _) (.refl _ _)).trans (setLine_untouched _ _ _))
theorem xoffFollow_untouched (l : List (Nat × Nat)) (s : State) : Untouched [.ports] s (xoffFollow l s) := by
  refine foldl_rel (Untouched [.ports]) (.refl _) (fun _ _ _ => .trans) _ (fun u e => ?_) l s
  exact (Untouched.ite (xoffTrack_untouched u e.1 e.2) (.refl _ u)).trans (setLine_untouched _ _ _)
theorem posted_untouched (s : State) (b : Nat) : Untouched [.ports] s (posted s b) := .ite (xoffFollow_untouched _ _) (.refl _ _)
theorem posted_of_not_receive {s : State} {b : Nat} (h : (bobn s b).kind ≠ .receive) : posted s b = s := if_neg h

/-! ### Operations that leave every bobbin -/
theorem cntPort_bob (s : State) (p i n : Nat) : (cntPort s p i n).bob = s.bob := by unfold cntPort; split <;> rfl
theorem cntHist_bob (s : State) (p i : Nat) : (cntHist s p i).bob = s.bob := by unfold cntHist; split <;> rfl
theorem cntBank_bob (s : State) (b i n : Nat) : (cntBank s b i n).bob = s.bob := by unfold cntBank; split <;> rfl
theorem raiseFirst_bob (s : State) (tag obj g n : Nat) : (raiseFirst s tag obj g n).bob = s.bob := by unfold raiseFirst; split <;> rfl
theorem ctSettle_bob (s : State) (n : Nat) : (ctSettle s n).bob = s.bob := by
  unfold ctSettle
  dsimp only
  split
  · rfl
  · split <;> rfl
theorem releaseCells_bob (s : State) (f : TxFrame) : (releaseCells s f).bob = s.bob := by
  unfold releaseCells
  split
  · rfl
  · split <;> rfl
theorem frameGone_bob (s : State) (fid : Nat) : (frameGone s fid).bob = s.bob := by
  unfold frameGone
  split
  · rfl
  · split
    · exact (ctSettle_bob _ _).trans (releaseCells_bob _ _)
    · exact releaseCells_bob _ _
theorem noteResidence_bob (s : State) (rx : Bool) (p n b r : Nat) (t : T96) : (noteResidence s rx p n b r t).bob = s.bob := by
  unfold noteResidence
  split
  · exact cntHist_bob _ _ _
  · rfl
theorem noteLate_bob (s : State) (rx : Bool) (p n : Nat) (code : Option (BitVec 8)) : (noteLate s rx p n code).bob = s.bob := by
  have hfirst := raiseFirst_bob (setCt s n { contr s n with late := (contr s n).late + 1 }) tgLate n 46 2
  cases code with
  | none => exact hfirst
  | some k =>
    cases rx with
    | false => exact (cntPort_bob _ _ _ _).trans hfirst
    | true => exact hfirst
theorem rxPromise_bob (s : State) (r : Rec) : (rxPromise s r).1.bob = s.bob := by
  unfold rxPromise
  split
  · dsimp only
    split
    · exact (noteLate_bob _ _ _ _ _).trans (noteResidence_bob _ _ _ _ _ _ _)
    · exact noteResidence_bob _ _ _ _ _ _ _
  · rfl

/-! ### What moves no HOST_IDX -/
/-- Every HOST_IDX, and the answer of the register port, are as they were. -/
structure SameHostIdx (s t : State) : Prop where
  idx : ∀ x, (bobn t x).hostIdx = (bobn s x).hostIdx
  reg : t.reg = s.reg

namespace SameHostIdx
theorem refl (s : State) : SameHostIdx s s := ⟨fun _ => rfl, rfl⟩
theorem trans {s t u : State} (h : SameHostIdx s t) (k : SameHostIdx t u) : SameHostIdx s u :=
  ⟨fun x => (k.idx x).trans (h.idx x), k.reg.trans h.reg⟩
/-- `trans` from its last step: the goal's outermost operation names the state between. -/
theorem after {s t u : State} (k : SameHostIdx t u) (h : SameHostIdx s t) : SameHostIdx s u := h.trans k
theorem of_tab {s t : State} (hb : t.bob.tab = s.bob.tab) (hr : t.reg = s.reg) : SameHostIdx s t :=
  ⟨fun x => by rw [bobn, bobn, hb], hr⟩
theorem of_flight {s t : State} (h : Flight s t) (hb : t.bob = s.bob) : SameHostIdx s t :=
  of_tab (by rw [hb]) (h.un.2 .regPort (by decide))
theorem ite {c : Prop} [Decidable c] {s t u : State} (h : SameHostIdx s t) (k : SameHostIdx s u) : SameHostIdx s (if c then t else u) := by
  split
  · exact h
  · exact k
theorem optionElim {α : Type} {s t : State} {f : State → α → State} (h : SameHostIdx s t) (hf : ∀ u a, SameHostIdx u (f u a)) (o : Option α) :
    SameHostIdx s (o.elim t (f t)) := by
  cases o with
  | none => exact h
  | some a => exact h.trans (hf t a)
end SameHostIdx

theorem setBob_sameHostIdx {s : State} {b : Nat} {X : Bobbin} (h : X.hostIdx = (bobn s b).hostIdx) : SameHostIdx s (setBob s b X) := by
  refine ⟨fun x => ?_, rfl⟩
  by_cases hx : x = b
  · rw [hx, bobn_setBob, h]
  · rw [bobn_setBob_other s X hx]
theorem raise_sameHostIdx (s : State) (g n : Nat) : SameHostIdx s (raise s g n) := .of_tab rfl rfl
theorem setCt_sameHostIdx (s : State) (n : Nat) (x : Contract) : SameHostIdx s (setCt s n x) := .of_tab rfl rfl
theorem frameGone_sameHostIdx (s : State) (fid : Nat) : SameHostIdx s (frameGone s fid) := .of_flight (frameGone_flight _ _) (frameGone_bob _ _)
theorem ctSettle_sameHostIdx (s : State) (n : Nat) : SameHostIdx s (ctSettle s n) := .of_flight (ctSettle_flight _ _) (ctSettle_bob _ _)
theorem cntBank_sameHostIdx (s : State) (b i n : Nat) : SameHostIdx s (cntBank s b i n) := .of_flight (cntBank_flight _ _ _ _) (cntBank_bob _ _ _ _)
theorem crumb_sameHostIdx (s : State) (b i : Nat) : SameHostIdx s (crumb s b i) :=
  have hset : SameHostIdx s (setBob s b { bobn s b with crumbs := setBitAt (bobn s b).crumbs i true }) := setBob_sameHostIdx rfl
  .ite (hset.trans (.of_tab rfl rfl)) hset

/-! ### Records: issue, settlement and drop (R205, R206) -/
theorem dropRec_sameHostIdx (s : State) (cb : Nat) (full : Bool) : SameHostIdx s (dropRec s cb full) :=
  have hcount : SameHostIdx s (raise (cntBank s cb 5 1) (bobGroup cb) 5) := (cntBank_sameHostIdx _ _ _ _).trans (raise_sameHostIdx _ _ _)
  .ite (hcount.trans (crumb_sameHostIdx _ _ _)) hcount
theorem notify_sameHostIdx (s : State) (cb : Nat) : SameHostIdx s (notify s cb) := .ite (.of_tab rfl rfl) (.refl s)
theorem settleSlot_sameHostIdx (s : State) (e : Issued) : SameHostIdx s (settleSlot s e) := by
  unfold settleSlot
  dsimp only
  split
  · exact .refl s
  · exact .ite (dropRec_sameHostIdx _ _ _) (.ite (.after (notify_sameHostIdx _ _) (setBob_sameHostIdx rfl)) (.refl s))
theorem settleSrc_sameHostIdx (s : State) (b n : Nat) : SameHostIdx s (settleSrc s b n) := .ite (setBob_sameHostIdx rfl) (.refl s)
theorem drainCheck_sameHostIdx (s : State) (b : Nat) : SameHostIdx s (drainCheck s b) :=
  .ite (.after (raise_sameHostIdx _ _ _) (setBob_sameHostIdx rfl)) (.refl s)

/-- Steps 2 and 3 of R205, then what the end of a frame, of a promise and of a drain lets go. -/
theorem settleRec_eq (s : State) (e : Issued) : settleRec s e =
    let slot := settleSlot s e
    let src := e.record.src.elim slot (fun b => settleSrc slot b e.record.count)
    let frame := e.record.fid.elim src (frameGone src)
    let promise := e.record.promise.elim frame (fun x => ctSettle frame x.contract)
    e.record.src.elim promise (drainCheck promise) := by
  unfold settleRec
  cases e.record.src <;> cases e.record.fid <;> cases e.record.promise <;> rfl
theorem settleRec_sameHostIdx (s : State) (e : Issued) : SameHostIdx s (settleRec s e) := by
  rw [settleRec_eq]
  have hsrc := (settleSlot_sameHostIdx s e).optionElim (fun u b => settleSrc_sameHostIdx u b e.record.count) e.record.src
  have hframe := hsrc.optionElim frameGone_sameHostIdx e.record.fid
  have hpromise := hframe.optionElim (fun u (x : Promise) => ctSettle_sameHostIdx u x.contract) e.record.promise
  exact hpromise.optionElim drainCheck_sameHostIdx e.record.src
theorem settleIssued_sameHostIdx (n : Nat) (s : State) : SameHostIdx s (settleIssued n s) := by
  induction n generalizing s with
  | zero => exact .refl s
  | succ n ih =>
    unfold settleIssued
    split
    · exact .refl s
    · exact .after (ih _) (.after (settleRec_sameHostIdx _ _) (.of_tab rfl rfl))
/-- A record is issued into a slot, or dropped. -/
theorem issue_sameHostIdx (s : State) (c : Prop) [Decidable c] (cb : Nat) (full : Bool) (x y : List Issued) :
    SameHostIdx s (if c then { dropRec s cb full with bob := { (dropRec s cb full).bob with issued := x } } else { s with bob := { s.bob with issued := y } }) :=
  .ite ((dropRec_sameHostIdx s cb full).trans (.of_tab rfl rfl)) (.of_tab rfl rfl)
theorem issueOne_sameHostIdx (s : State) (r : Rec) : SameHostIdx s (issueOne s r) := by
  have hpromise : SameHostIdx s (rxPromise s r).1 := .of_flight (rxPromise_flight s r) (rxPromise_bob s r)
  unfold issueOne
  generalize rxPromise s r = x at hpromise
  obtain ⟨u, src, index, count, bytes, promise, fid⟩ := x
  refine hpromise.trans ?_
  cases src with
  | none => exact issue_sameHostIdx u _ _ _ _ _
  | some b =>
    dsimp only
    generalize codeCrumb (BitVec.ofNat 8 (oct bytes 0)) = k
    cases k with
    | none => exact issue_sameHostIdx u _ _ _ _ _
    | some i => exact .after (issue_sameHostIdx (crumb u b i) _ _ _ _ _) (crumb_sameHostIdx u b i)
theorem issueReady_sameHostIdx (n : Nat) (s : State) : SameHostIdx s (issueReady n s) := by
  induction n generalizing s with
  | zero => exact .refl s
  | succ n ih =>
    unfold issueReady
    split
    · exact .refl s
    · exact .after (ih _) (.after (issueOne_sameHostIdx _ _) (.of_tab rfl rfl))
theorem pump_sameHostIdx (s : State) : SameHostIdx s (pump s) := (issueReady_sameHostIdx _ _).trans (settleIssued_sameHostIdx _ _)
theorem dropLost_eq (s : State) (b : Nat) (r : Rec) : dropLost s b r =
    let dropped := dropRec s (bobn s b).completion false
    let crumbed := (codeCrumb (BitVec.ofNat 8 (oct r.bytes 0))).elim dropped
      (fun i => if (bobn dropped b).st = .stale ∧ isOn dropped (dBC (b / 32768)) then crumb dropped b i else dropped)
    let frame := r.fid.elim crumbed (frameGone crumbed)
    r.promise.elim frame (fun x => ctSettle frame x.contract) := by
  unfold dropLost
  cases codeCrumb (BitVec.ofNat 8 (oct r.bytes 0)) <;> cases r.fid <;> cases r.promise <;> rfl
theorem dropLost_sameHostIdx (s : State) (b : Nat) (r : Rec) : SameHostIdx s (dropLost s b r) := by
  rw [dropLost_eq]
  have hcrumb := (dropRec_sameHostIdx s (bobn s b).completion false).optionElim
    (f := fun u i => if (bobn u b).st = .stale ∧ isOn u (dBC (b / 32768)) then crumb u b i else u)
    (fun u i => .ite (crumb_sameHostIdx u b i) (.refl u)) (codeCrumb (BitVec.ofNat 8 (oct r.bytes 0)))
  have hframe := hcrumb.optionElim frameGone_sameHostIdx r.fid
  exact hframe.optionElim (fun u (x : Promise) => ctSettle_sameHostIdx u x.contract) r.promise
theorem complete_sameHostIdx (s : State) (r : Rec) : SameHostIdx s (complete s r) := by
  have hpump : SameHostIdx s (pump { s with bob := { s.bob with ready := s.bob.ready ++ [r] } }) :=
    .after (pump_sameHostIdx _) (.of_tab rfl rfl)
  unfold complete
  split
  · exact .ite hpump (dropLost_sameHostIdx _ _ _)
  · exact hpump

/-! ### Examination and the door (R199, R227 to R230) -/
theorem claim_sameHostIdx (s : State) (f : TxFrame) : SameHostIdx s (claim_ s f) := .of_tab rfl rfl
theorem malformedTx_sameHostIdx (s : State) (b idx : Nat) (code : BitVec 8) (user stream : Nat) :
    SameHostIdx s (malformedTx s b idx code user stream) := by
  unfold malformedTx
  exact .after (complete_sameHostIdx _ _) (.after (raise_sameHostIdx _ _ _) (cntBank_sameHostIdx _ _ _ _))
theorem raiseFirst_sameHostIdx (s : State) (tag obj g i : Nat) : SameHostIdx s (raiseFirst s tag obj g i) :=
  .of_flight (raiseFirst_flight _ _ _ _ _) (raiseFirst_bob _ _ _ _ _)
theorem cntPort_sameHostIdx (s : State) (p i n : Nat) : SameHostIdx s (cntPort s p i n) :=
  .of_flight (cntPort_flight _ _ _ _) (cntPort_bob _ _ _ _)
theorem refuse_sameHostIdx (s : State) (f : TxFrame) (code : BitVec 8) : SameHostIdx s (refuse s f code) := by
  unfold refuse
  exact .after (complete_sameHostIdx _ _) (.after (cntPort_sameHostIdx _ _ _ _) (.after (raiseFirst_sameHostIdx _ _ _ _ _) (setCt_sameHostIdx _ _ _)))
theorem nonconforming_sameHostIdx (s : State) (f : TxFrame) : SameHostIdx s (nonconforming s f) :=
  .ite (.after (claim_sameHostIdx _ _) (.after (raiseFirst_sameHostIdx _ _ _ _ _) (setCt_sameHostIdx _ _ _))) (refuse_sameHostIdx _ _ _)
theorem door_sameHostIdx (s : State) (f : TxFrame) : SameHostIdx s (door s f) := by
  have hrefill (C : Contract) : SameHostIdx s (setCt s f.contract C) := setCt_sameHostIdx s f.contract C
  have hheld (C D : Contract) : SameHostIdx s (setCt (setCt s f.contract C) f.contract D) := .after (setCt_sameHostIdx _ _ _) (hrefill C)
  unfold door
  refine .ite (refuse_sameHostIdx _ _ _) (.ite (refuse_sameHostIdx _ _ _) (.ite (refuse_sameHostIdx _ _ _)
    (.ite (nonconforming_sameHostIdx _ _) ?refilled)))
  refine .ite (.after (nonconforming_sameHostIdx _ _) (hrefill _))
    (.ite (.after (nonconforming_sameHostIdx _ _) (.after (raise_sameHostIdx _ _ _) (hrefill _))) ?accepted)
  exact .after (.of_tab (by rfl) (by rfl)) (.ite (.after (setBob_sameHostIdx (by rfl)) (hheld _ _)) (hheld _ _))
theorem examine_sameHostIdx (s : State) (b idx : Nat) (d : Option (BitVec 256)) : SameHostIdx s (examine s b idx d) := by
  unfold examine
  extract_lets B taken
  have htaken : SameHostIdx s taken := setBob_sameHostIdx rfl
  clear_value taken
  refine htaken.trans ?_
  cases d with
  | none => exact .after (malformedTx_sameHostIdx _ _ _ _ _ _) (.of_tab rfl rfl)
  | some d =>
    have hid : SameHostIdx taken (newId taken).2 := .of_tab rfl rfl
    dsimp only
    split
    · exact malformedTx_sameHostIdx _ _ _ _ _ _
    · exact .ite (.after (claim_sameHostIdx _ _) hid) (.ite (hid.trans (.of_tab rfl rfl)) (.after (door_sameHostIdx _ _) hid))
theorem examinePushed_sameHostIdx (n b : Nat) (s : State) : SameHostIdx s (examinePushed n b s) := by
  induction n generalizing s with
  | zero => exact .refl s
  | succ n ih =>
    unfold examinePushed
    dsimp only
    split
    · exact .refl s
    · exact .ite (.refl s) (.after (ih _) (examine_sameHostIdx _ _ _ _))
theorem posted_sameHostIdx (s : State) (b : Nat) : SameHostIdx s (posted s b) :=
  have h := posted_untouched s b
  .of_tab (congrArg Bobbins.tab (h.2 .bobbins (by decide))) (h.2 .regPort (by decide))

/-! ### The answers of a write of HOST_IDX -/
theorem exec_hostIdxWrite (b : Nat) (v : BitVec 64) (x : BitVec 8) (s : State) : exec (.hostIdxWrite b v x) s = event (hostIdxWrite b v x s) := rfl
theorem isOn_HD_of_idxOpen {s : State} {b : Nat} (h : idxOpen s b = true) : isOn s dHD = true := by
  simp only [idxOpen, Bool.and_eq_true] at h
  exact h.1.2
theorem hostIdxWrite_of_closed {s : State} {b : Nat} (v : BitVec 64) (x : BitVec 8) (h : idxOpen s b = false) :
    hostIdxWrite b v x s = setReg s .absent [] := by simp [hostIdxWrite, h]
theorem hostIdxWrite_of_ignored {s : State} {b : Nat} {v : BitVec 64} {x : BitVec 8} (h : idxOpen s b = true)
    (hi : x ≠ 0xFF ∨ (bobn s b).st ≠ .opened ∨ v.toNat % 2 ^ 17 = (bobn s b).hostIdx) : hostIdxWrite b v x s = setReg s .served [] := by
  have hopen : ¬ (!idxOpen s b) = true := by simp [h]
  exact (if_neg hopen).trans (if_pos hi)
theorem hostIdxWrite_of_checked {s : State} {b : Nat} {v : BitVec 64} (h : idxOpen s b = true) (ho : (bobn s b).st = .opened)
    (hn : v.toNat % 2 ^ 17 ≠ (bobn s b).hostIdx) :
    hostIdxWrite b v 0xFF s =
      if idxOk (bobn s b) (v.toNat % 2 ^ 17) then
        posted (examinePushed (bobn s b).pushed.length b (setBob (setReg s .served []) b { bobn s b with hostIdx := v.toNat % 2 ^ 17 })) b
      else raise (cntBank (setReg s .served []) b 0 1) (bobGroup b) 0 := by
  have hopen : ¬ (!idxOpen s b) = true := by simp [h]
  have hdue : ¬ ((0xFF : BitVec 8) ≠ 0xFF ∨ (bobn s b).st ≠ .opened ∨ v.toNat % 2 ^ 17 = (bobn s b).hostIdx) := by
    rintro (h | h | h)
    · exact h rfl
    · exact h ho
    · exact hn h
  exact (if_neg hopen).trans (if_neg hdue)
/-- The check of R192 by the kind of the bobbin: against the free entries, or against the occupancy. -/
theorem idxOk_iff (B : Bobbin) (w : Nat) :
    idxOk B w = true ↔ w < 2 * bsize B
      ∧ (B.kind ≠ .completion → (w + 2 * bsize B - B.hostIdx) % (2 * bsize B) ≤ bsize B - occOf B.hostIdx B.blockIdx (bsize B))
      ∧ (B.kind = .completion → (w + 2 * bsize B - B.hostIdx) % (2 * bsize B) ≤ occOf B.blockIdx B.hostIdx (bsize B)) := by
  by_cases hk : B.kind = .completion
  · simp [idxOk, hk, consOk]
  · simp [idxOk, hk, prodOk]

/-! ### An accepted and a rejected write -/
/-- What is known of `u` also holds at the end of a row, where no raise waits. -/
theorem Untouched.settled {but : List Part} {s u : State} (hw : s.ic.wakeHit = none) (hirq : Part.irq ∉ but) (h : Untouched but s u) :
    Untouched but s (settle u) := by
  have hic : u.ic = s.ic := h.2 .irq hirq
  exact h.trans ((settle_untouched u (hic ▸ hw)).weaken (by simp))
/-- HOST_IDX of bobbin `b` is stored and the write answered, before anything follows from it. -/
def stored (s : State) (b w : Nat) : State := setBob (setReg s .served []) b { bobn s b with hostIdx := w }
theorem bobn_stored (s : State) (b w : Nat) : bobn (stored s b w) b = { bobn s b with hostIdx := w } := bobn_setBob _ _ _
theorem bobn_stored_other (s : State) {b x : Nat} (w : Nat) (h : x ≠ b) : bobn (stored s b w) x = bobn s x :=
  bobn_setBob_other (setReg s .served []) _ h
theorem stored_untouched (s : State) (b w : Nat) : Untouched [.bobbins, .regPort] s (stored s b w) :=
  ((setReg_untouched s _ _).weaken (by simp)).trans ((setBob_untouched _ _ _).weaken (by simp))
theorem hostIdxWrite_of_accepted {s : State} {b : Nat} {v : BitVec 64} (h : idxOpen s b = true) (ho : (bobn s b).st = .opened)
    (hn : v.toNat % 2 ^ 17 ≠ (bobn s b).hostIdx) (hok : idxOk (bobn s b) (v.toNat % 2 ^ 17) = true) :
    hostIdxWrite b v 0xFF s = posted (examinePushed (bobn s b).pushed.length b (stored s b (v.toNat % 2 ^ 17))) b :=
  (hostIdxWrite_of_checked h ho hn).trans (if_pos hok)
theorem hostIdxWrite_of_rejected {s : State} {b : Nat} {v : BitVec 64} (h : idxOpen s b = true) (ho : (bobn s b).st = .opened)
    (hn : v.toNat % 2 ^ 17 ≠ (bobn s b).hostIdx) (hok : idxOk (bobn s b) (v.toNat % 2 ^ 17) ≠ true) :
    hostIdxWrite b v 0xFF s = raise (cntBank (setReg s .served []) b 0 1) (bobGroup b) 0 :=
  (hostIdxWrite_of_checked h ho hn).trans (if_neg hok)
/-- A state reached from `stored` with no bobbin moved further holds the new index, and every other bobbin's old one. -/
theorem SameHostIdx.of_stored {s t : State} {b w : Nat} (h : SameHostIdx (stored s b w) t) :
    (bobn t b).hostIdx = w ∧ (∀ x, x ≠ b → (bobn t x).hostIdx = (bobn s x).hostIdx) ∧ t.reg = { resp := .served, data := [] } :=
  ⟨by rw [h.idx, bobn_stored], fun x hx => by rw [h.idx, bobn_stored_other s w hx], h.reg⟩
/-- What changed no bobbin since `stored` leaves the written bobbin but for its index, and every other bobbin whole. -/
theorem bobn_of_stored {s t : State} {b w : Nat} (h : t.bob = (stored s b w).bob) :
    bobn t b = { bobn s b with hostIdx := w } ∧ ∀ x, x ≠ b → bobn t x = bobn s x := by
  have hbobn (x : Nat) : bobn t x = bobn (stored s b w) x := by rw [bobn, bobn, h]
  exact ⟨by rw [hbobn, bobn_stored], fun x hx => by rw [hbobn, bobn_stored_other s w hx]⟩

end Sys2Proof.Machine

namespace Sys2Proof.Bobbins
open Sys2Proof.Machine

/-- Settles O55: an accepted write stores the index, and neither the descriptors examined for it nor the classes it frees (R45) move a
HOST_IDX; a rejected one is a count and a raise; every other one is an answer alone. -/
theorem bobbinDoorbell : Obligations.BobbinDoorbell := by
  intro s b v B z w adv ok hw
  have hok : idxOk B w = true ↔ ok := idxOk_iff B w
  clear_value ok
  refine ⟨fun hopen x => ?closed, fun hopen x hx => ?short, fun hopen ho hn h => ?accepted, fun hopen ho hn h => ?rejected,
    fun hopen hi => ?ignored⟩
  case closed =>
    rw [exec_hostIdxWrite, hostIdxWrite_of_closed v x hopen]
    exact event_setReg_answers hw _ _
  case short =>
    rw [exec_hostIdxWrite, hostIdxWrite_of_ignored hopen (.inl hx)]
    exact event_setReg_answers hw _ _
  case accepted =>
    rw [exec_hostIdxWrite, hostIdxWrite_of_accepted hopen ho hn (hok.2 h)]
    have hsame := (examinePushed_sameHostIdx B.pushed.length b (stored s b w)).trans (posted_sameHostIdx _ b)
    obtain ⟨hidx, hothers, hreg⟩ := (hsame.trans (.of_tab (by rw [settle_bob]) (settle_reg _))).of_stored
    have hnone (hp : B.pushed = []) : examinePushed B.pushed.length b (stored s b w) = stored s b w := by rw [hp]; rfl
    refine ⟨_, rfl, hidx, hothers, hreg, fun hp _ => ?receive, fun hp hk => ?other⟩
    case receive =>
      have hposted := posted_untouched (stored s b w) b
      have hbob : (posted (stored s b w) b).bob = (stored s b w).bob := hposted.2 .bobbins (by decide)
      have hall := ((stored_untouched s b w).weaken (by simp)).trans (hposted.weaken (b' := [.bobbins, .regPort, .ports]) (by simp))
      obtain ⟨hself, hrest⟩ := bobn_of_stored ((settle_bob _).trans hbob)
      rw [hnone hp]
      exact ⟨hself, hrest, hall.settled hw (by decide)⟩
    case other =>
      have hkind : (bobn (stored s b w) b).kind ≠ .receive := by rw [bobn_stored]; exact hk
      obtain ⟨hself, hrest⟩ := bobn_of_stored (settle_bob (stored s b w))
      rw [hnone hp, posted_of_not_receive hkind]
      exact ⟨hself, hrest, (stored_untouched s b w).settled hw (by decide)⟩
  case rejected =>
    rw [exec_hostIdxWrite, hostIdxWrite_of_rejected hopen ho hn (fun hc => h (hok.1 hc))]
    have hcount := cntBank_bank (s := setReg s .served []) (isOn_HD_of_idxOpen hopen) b 0 1
    have hbob := cntBank_bob (setReg s .served []) b 0 1
    have hmoved : Untouched ([.counters, .regPort] ++ loud) s (raise (cntBank (setReg s .served []) b 0 1) (bobGroup b) 0) :=
      (((setReg_untouched s _ _).weaken (by simp)).trans ((cntBank_untouched _ b 0 1).weaken (by simp))).trans
        ((raise_untouched _ _ _).weaken (by simp [loud]))
    refine ⟨_, rfl, fun x => ?_, settle_pends _ (raise_pends _ _ _ (by decide)), ?_,
      hmoved.trans ((settle_kept_untouched _).weaken fun p hp => List.mem_append_right _ hp)⟩
    · rw [bobn_settle, bobn, raise_bob, hbob]; rfl
    · rw [settle_ctr, raise_ctr]; exact hcount
  case ignored =>
    rw [exec_hostIdxWrite, hostIdxWrite_of_ignored hopen (.inr hi)]
    exact ⟨_, rfl, (setReg_untouched s _ _).settled hw (by decide)⟩

end Sys2Proof.Bobbins
end
